-- ==== Sys2Proof/Word.lean ====
section
/-! DEFINITION. The two machine words of the core: bytes (R6 XLEN) and 16-bit addresses (R6 ALEN). -/

namespace Sys2Proof

/-- An 8-bit register, immediate or memory cell (00_scope.md R6, XLEN = 8). -/
abbrev Byte := BitVec 8

/-- A 16-bit address, program counter or stack pointer (00_scope.md R6, ALEN = 16). -/
abbrev Word := BitVec 16

end Sys2Proof
end

