-- ==== Sys2Proof/Config.lean ====
section
/-! DEFINITION. The parameters of the step function (10_state.md R54, 00_scope.md R6), and the open
values the spec gives no number for (93_implementation_defined.md U2, U3). -/

namespace Sys2Proof

/-- What a session fixes at construction and no step changes (R54). The state carries it as plain data,
so that a claim about every state is a claim about every configuration (assumption 1). -/
structure Config where
  /-- `ROM_LEN`, the length of the supplied image (R44, R72). -/
  romLen : Nat
  /-- `WATCHDOG_THRESHOLD`, reference 50,000 (R141). -/
  watchdogThreshold : Nat
  /-- `AUTO_IME_THRESHOLD`, reference 100,000 (R148). -/
  autoImeThreshold : Nat
  /-- `WATCHDOG_ACCOUNTS`, whether a watchdog step runs step 6 (R143, D15). -/
  watchdogAccounts : Bool
  /-- The open part of `WATCHDOG_LCDC`; its bits 7, 1 and 0 are not used, since R6 fixes them to 1. -/
  watchdogLcdcOpen : Byte
  /-- `WATCHDOG_BGP`, "a high-contrast value", any byte (R142, D16). -/
  watchdogBgp : Byte
  /-- `CB_UNKNOWN_COST`, any byte (R223, D17). -/
  cbUnknownCost : Byte
deriving DecidableEq, Repr

/-- The open part of `WATCHDOG_LCDC` at construction: no value of it can be proved (U3, assumption 2). -/
opaque OpenValue.watchdogLcdc : Byte

/-- `WATCHDOG_BGP` at construction: no value of it can be proved (U3, assumption 2). -/
opaque OpenValue.watchdogBgp : Byte

/-- `CB_UNKNOWN_COST` at construction: no value of it can be proved (U2, assumption 2). -/
opaque OpenValue.cbUnknownCost : Byte

end Sys2Proof
end

