-- ==== Sys2Proof/Machine/ResetValues.lean ====
section
/-! DEFINITION. The values the machine holds right after construction (10_state.md R60 to R62). -/

namespace Sys2Proof.Machine.Reset

/-- A = 0x01 (R60). -/
def a : Byte := 0x01#8

/-- F = 0xB0, that is Z=1, N=0, H=1, C=1 (R60). -/
def f : Byte := 0xB0#8

/-- B = 0x00 (R60). -/
def b : Byte := 0x00#8

/-- C = 0x13 (R60). -/
def c : Byte := 0x13#8

/-- D = 0x00 (R60). -/
def d : Byte := 0x00#8

/-- E = 0xD8 (R60). -/
def e : Byte := 0xD8#8

/-- H = 0x01 (R60). -/
def h : Byte := 0x01#8

/-- L = 0x4D (R60). -/
def l : Byte := 0x4D#8

/-- PC = RESET_PC = 0x0100 (R60, R63). -/
def pc : Word := 0x0100#16

/-- SP = 0xFFFE (R60). -/
def sp : Word := 0xFFFE#16

/-- Total cycles = 0 (R60). -/
def total : Nat := 0

/-- IME = false (R60). -/
def ime : Bool := false

/-- The scanline index at construction (R61, the spec's decision D24). -/
def ly : Byte := 0x00#8

/-- The mode clock at construction (R61, D24). -/
def clk : Nat := 0

/-- STAT at construction: bits 1..0 are 2 (R61); DESIGN CHOICE: bits 7..2 (`INIT_STAT_HI`) are 0
(R62 leaves them open; assumption 4). -/
def stat : Byte := 0x02#8

/-- DESIGN CHOICE: every `INIT_*` register that R62 leaves open is 0 (assumption 4). -/
def openByte : Byte := 0x00#8

/-- DESIGN CHOICE: every frame-buffer entry (`INIT_FB`) is 0 (R62, assumption 4). -/
def openShade : BitVec 2 := 0#2

/-- DESIGN CHOICE: the value returned by the last step, before any step has run (assumption 6). -/
def cost : Byte := 0x00#8

/-- The reference configuration: thresholds of R6; `ROM_LEN` 32768, which R6 lets a model assume
(DESIGN CHOICE, assumption 5); `WATCHDOG_ACCOUNTS` as decided (D15); the open values free. -/
def cfg : Config where
  romLen := 32768
  watchdogThreshold := 50000
  autoImeThreshold := 100000
  watchdogAccounts := true
  watchdogLcdcOpen := OpenValue.watchdogLcdc
  watchdogBgp := OpenValue.watchdogBgp
  cbUnknownCost := OpenValue.cbUnknownCost

end Sys2Proof.Machine.Reset
end

