-- ==== Sys2Proof/Syntax.lean ====
section
/-! DEFINITION. The instruction set: register and pair names, and one constructor for each row of
spec/opcode_table.json (R118, R122). -/

namespace Sys2Proof

/-- The registers an instruction can name (R113). F has no register code. -/
inductive Reg where
  | b | c | d | e | h | l | a
deriving DecidableEq, Repr

/-- The 16-bit operands `rr` (R114): the three pairs of R21, and the stack pointer. -/
inductive Pair where
  | bc | de | hl | sp
deriving DecidableEq, Repr

/-- One constructor per row of spec/opcode_table.json. `n` is an 8-bit immediate, `nn` a 16-bit
immediate, `e` a signed 8-bit offset (R111, R115, R116). -/
inductive Instr where
  /-- `NOP` (R220). -/
  | nop
  /-- `LD BC,nn` (R182). -/
  | ldBcNn (nn : Word)
  /-- `LD DE,nn` (R182). -/
  | ldDeNn (nn : Word)
  /-- `LD HL,nn` (R182). -/
  | ldHlNn (nn : Word)
  /-- `LD SP,nn` (R182). -/
  | ldSpNn (nn : Word)
  /-- `INC BC` (R202). -/
  | incBc
  /-- `INC DE` (R202). -/
  | incDe
  /-- `INC HL` (R202). -/
  | incHl
  /-- `INC SP` (R202). -/
  | incSp
  /-- `LD B,n` (R181). -/
  | ldBN (n : Byte)
  /-- `LD C,n` (R181). -/
  | ldCN (n : Byte)
  /-- `LD D,n` (R181). -/
  | ldDN (n : Byte)
  /-- `LD E,n` (R181). -/
  | ldEN (n : Byte)
  /-- `LD H,n` (R181). -/
  | ldHN (n : Byte)
  /-- `LD L,n` (R181). -/
  | ldLN (n : Byte)
  /-- `LD A,n` (R181). -/
  | ldAN (n : Byte)
  /-- `JR n` (R162). -/
  | jrN (e : Byte)
  /-- `JR NZ,n` (R164). -/
  | jrNzN (e : Byte)
  /-- `JR Z,n` (R163). -/
  | jrZN (e : Byte)
  /-- `LD B,B` (R180). -/
  | ldBB
  /-- `LD B,C` (R180). -/
  | ldBC
  /-- `LD B,D` (R180). -/
  | ldBD
  /-- `LD B,E` (R180). -/
  | ldBE
  /-- `LD B,H` (R180). -/
  | ldBH
  /-- `LD B,L` (R180). -/
  | ldBL
  /-- `LD B,A` (R180). -/
  | ldBA
  /-- `LD C,B` (R180). -/
  | ldCB
  /-- `LD C,C` (R180). -/
  | ldCC
  /-- `LD C,D` (R180). -/
  | ldCD
  /-- `LD C,E` (R180). -/
  | ldCE
  /-- `LD C,H` (R180). -/
  | ldCH
  /-- `LD C,L` (R180). -/
  | ldCL
  /-- `LD C,A` (R180). -/
  | ldCA
  /-- `LD D,B` (R180). -/
  | ldDB
  /-- `LD D,C` (R180). -/
  | ldDC
  /-- `LD D,D` (R180). -/
  | ldDD
  /-- `LD D,E` (R180). -/
  | ldDE
  /-- `LD D,H` (R180). -/
  | ldDH
  /-- `LD D,L` (R180). -/
  | ldDL
  /-- `LD D,A` (R180). -/
  | ldDA
  /-- `LD E,B` (R180). -/
  | ldEB
  /-- `LD E,C` (R180). -/
  | ldEC
  /-- `LD E,D` (R180). -/
  | ldED
  /-- `LD E,E` (R180). -/
  | ldEE
  /-- `LD E,H` (R180). -/
  | ldEH
  /-- `LD E,L` (R180). -/
  | ldEL
  /-- `LD E,A` (R180). -/
  | ldEA
  /-- `LD H,B` (R180). -/
  | ldHB
  /-- `LD H,C` (R180). -/
  | ldHC
  /-- `LD H,D` (R180). -/
  | ldHD
  /-- `LD H,E` (R180). -/
  | ldHE
  /-- `LD H,H` (R180). -/
  | ldHH
  /-- `LD H,L` (R180). -/
  | ldHL
  /-- `LD H,A` (R180). -/
  | ldHA
  /-- `LD L,B` (R180). -/
  | ldLB
  /-- `LD L,C` (R180). -/
  | ldLC
  /-- `LD L,D` (R180). -/
  | ldLD
  /-- `LD L,E` (R180). -/
  | ldLE
  /-- `LD L,H` (R180). -/
  | ldLH
  /-- `LD L,L` (R180). -/
  | ldLL
  /-- `LD L,A` (R180). -/
  | ldLA
  /-- `LD A,B` (R180). -/
  | ldAB
  /-- `LD A,C` (R180). -/
  | ldAC
  /-- `LD A,D` (R180). -/
  | ldAD
  /-- `LD A,E` (R180). -/
  | ldAE
  /-- `LD A,H` (R180). -/
  | ldAH
  /-- `LD A,L` (R180). -/
  | ldAL
  /-- `LD A,A` (R180). -/
  | ldAA
  /-- `XOR A` (R201). -/
  | xorA
  /-- `RET NZ` (R167). -/
  | retNz
  /-- `JP nn` (R161). -/
  | jpNn (nn : Word)
  /-- `RET` (R166). -/
  | ret
  /-- `CALL nn` (R165). -/
  | callNn (nn : Word)
  /-- `LDH (n),A` (R185). -/
  | ldhMemNA (n : Byte)
  /-- `LD (nn),A` (R183). -/
  | ldMemNnA (nn : Word)
  /-- `LDH A,(n)` (R186). -/
  | ldhAMemN (n : Byte)
  /-- `DI` (R221). -/
  | di
  /-- `LD A,(nn)` (R184). -/
  | ldAMemNn (nn : Word)
  /-- `CP n` (R200). -/
  | cpN (n : Byte)
  /-- `RST 38h` (R168). -/
  | rst38
  /-- `RES 0,B` (R203). -/
  | res0B
  /-- `RES 0,C` (R203). -/
  | res0C
  /-- `RES 0,D` (R203). -/
  | res0D
  /-- `RES 0,E` (R203). -/
  | res0E
  /-- `RES 0,H` (R203). -/
  | res0H
  /-- `RES 0,L` (R203). -/
  | res0L
  /-- `RES 0,A` (R203). -/
  | res0A
  /-- `RES 1,B` (R203). -/
  | res1B
  /-- `RES 1,C` (R203). -/
  | res1C
  /-- `RES 1,D` (R203). -/
  | res1D
  /-- `RES 1,E` (R203). -/
  | res1E
  /-- `RES 1,H` (R203). -/
  | res1H
  /-- `RES 1,L` (R203). -/
  | res1L
  /-- `RES 1,A` (R203). -/
  | res1A
  /-- `RES 2,B` (R203). -/
  | res2B
  /-- `RES 2,C` (R203). -/
  | res2C
  /-- `RES 2,D` (R203). -/
  | res2D
  /-- `RES 2,E` (R203). -/
  | res2E
  /-- `RES 2,H` (R203). -/
  | res2H
  /-- `RES 2,L` (R203). -/
  | res2L
  /-- `RES 2,A` (R203). -/
  | res2A
  /-- `RES 3,B` (R203). -/
  | res3B
  /-- `RES 3,C` (R203). -/
  | res3C
  /-- `RES 3,D` (R203). -/
  | res3D
  /-- `RES 3,E` (R203). -/
  | res3E
  /-- `RES 3,H` (R203). -/
  | res3H
  /-- `RES 3,L` (R203). -/
  | res3L
  /-- `RES 3,A` (R203). -/
  | res3A
  /-- `RES 4,B` (R203). -/
  | res4B
  /-- `RES 4,C` (R203). -/
  | res4C
  /-- `RES 4,D` (R203). -/
  | res4D
  /-- `RES 4,E` (R203). -/
  | res4E
  /-- `RES 4,H` (R203). -/
  | res4H
  /-- `RES 4,L` (R203). -/
  | res4L
  /-- `RES 4,A` (R203). -/
  | res4A
  /-- `RES 5,B` (R203). -/
  | res5B
  /-- `RES 5,C` (R203). -/
  | res5C
  /-- `RES 5,D` (R203). -/
  | res5D
  /-- `RES 5,E` (R203). -/
  | res5E
  /-- `RES 5,H` (R203). -/
  | res5H
  /-- `RES 5,L` (R203). -/
  | res5L
  /-- `RES 5,A` (R203). -/
  | res5A
  /-- `RES 6,B` (R203). -/
  | res6B
  /-- `RES 6,C` (R203). -/
  | res6C
  /-- `RES 6,D` (R203). -/
  | res6D
  /-- `RES 6,E` (R203). -/
  | res6E
  /-- `RES 6,H` (R203). -/
  | res6H
  /-- `RES 6,L` (R203). -/
  | res6L
  /-- `RES 6,A` (R203). -/
  | res6A
  /-- `RES 7,B` (R203). -/
  | res7B
  /-- `RES 7,C` (R203). -/
  | res7C
  /-- `RES 7,D` (R203). -/
  | res7D
  /-- `RES 7,E` (R203). -/
  | res7E
  /-- `RES 7,H` (R203). -/
  | res7H
  /-- `RES 7,L` (R203). -/
  | res7L
  /-- `RES 7,A` (R203). -/
  | res7A
  /-- `(escape prefix)` (R117). -/
  | escapePrefix
  /-- `(unknown opcode)` (R222). -/
  | unknownOpcode (op : Byte)
  /-- `(unknown escaped opcode)` (R223). -/
  | unknownEscapedOpcode (op2 : Byte)
deriving DecidableEq, Repr

end Sys2Proof
end

