-- ==== Sys2Proof/Machine/State.lean ====
section
/-! DEFINITION. The state of the machine (10_state.md), as plain data, and the state after reset. -/

namespace Sys2Proof.Machine

/-- The four modes of the rendering engine (R38). -/
inductive PpuMode where
  | oamScan
  | drawing
  | hblank
  | vblank
deriving DecidableEq, Repr

/-- The observability events (R281, R283). -/
inductive Event where
  /-- A bus read outside every region (R80). -/
  | unmappedRead (addr : Word)
  /-- A bus write outside every region (R80). -/
  | unmappedWrite (addr : Word) (value : Byte)
  /-- Step 4 met an opcode byte with no row (R222). -/
  | unknownOpcode (pc : Word) (op : Byte)
  /-- Step 4 met a second byte with no row (R223). -/
  | unknownEscapedOpcode (pc : Word) (op2 : Byte)
deriving DecidableEq, Repr

/-- A palette output 0..3 (R12, R50). -/
abbrev Shade := BitVec 2

/-- One row of the frame buffer, 160 entries (R50). -/
abbrev FbRow := Vector Shade 160

/-- The frame buffer, 144 rows (R50). -/
abbrev FrameBuffer := Vector FbRow 144

/-- The bytes behind the bus, one list for ROM, VRAM, WRAM, OAM, the generic I/O block and HRAM
(R44 to R49), each cell under its bus address. -/
abbrev Memory := List Host.Cell

/-- The whole state. Every field is plain data. -/
structure State where
  /-- General register A (R20). -/
  a : Byte
  /-- Flag register F (R23): Z, N, H, C in bits 7..4. -/
  f : Byte
  /-- General register B (R20). -/
  b : Byte
  /-- General register C (R20). -/
  c : Byte
  /-- General register D (R20). -/
  d : Byte
  /-- General register E (R20). -/
  e : Byte
  /-- General register H (R20). -/
  h : Byte
  /-- General register L (R20). -/
  l : Byte
  /-- Stack pointer (R26). -/
  sp : Word
  /-- Program counter: the address of the next opcode byte (R24). -/
  pc : Word
  /-- Master interrupt-enable flag (R28). -/
  ime : Bool
  /-- Total-elapsed-cycle counter (R29). -/
  total : Nat
  /-- The interrupt-flag register IF (R30). -/
  ifReg : Byte
  /-- The interrupt-enable register IE (R31). -/
  ie : Byte
  /-- LCD control (R32). -/
  lcdc : Byte
  /-- LCD status; bits 1..0 mirror the mode (R33). -/
  stat : Byte
  /-- Background scroll, rows (R34). -/
  scy : Byte
  /-- Background scroll, columns (R34). -/
  scx : Byte
  /-- Current scanline index, 0..153 (R35). -/
  ly : Byte
  /-- Background palette (R36). -/
  bgp : Byte
  /-- Object palette 0 (R36). -/
  obp0 : Byte
  /-- Object palette 1 (R36). -/
  obp1 : Byte
  /-- Window row (R37). -/
  wy : Byte
  /-- Window column plus 7 (R37). -/
  wx : Byte
  /-- The mode of the rendering engine (R38). -/
  mode : PpuMode
  /-- The mode-local cycle counter (R39). -/
  clk : Nat
  /-- ROM, VRAM, WRAM, OAM, generic I/O block and HRAM (R44 to R49). -/
  mem : Memory
  /-- The frame buffer (R50). -/
  fb : FrameBuffer
  /-- The value the last `step` returned: the model's own field for the `cycles` of R150. -/
  cost : Byte
  /-- The observability trace, oldest event first (R283); no rule reads it. -/
  trace : List Event
  /-- The parameters of the step function (R54); no step changes them. -/
  cfg : Config
deriving DecidableEq, Repr

/-- The machine has no fault: "There are no faults" (93_implementation_defined.md section 1), and no
instruction raises an exception (R280). Nothing raises one, which is safe. -/
inductive Fault where
deriving DecidableEq, Repr

/-- Why the model gives an instruction no meaning. -/
inductive Refusal where
  /-- Raised only by an arm of `exec` whose instruction has no meaning yet (there is none); safe. -/
  | notModelled (mnemonic : String)
deriving DecidableEq, Repr

/-- The state right after construction (R60 to R63, R310). Memory lists nothing: the ROM image is
loaded from outside the machine (`construct`, assumption 7). -/
def State.reset : State where
  a := Reset.a
  f := Reset.f
  b := Reset.b
  c := Reset.c
  d := Reset.d
  e := Reset.e
  h := Reset.h
  l := Reset.l
  sp := Reset.sp
  pc := Reset.pc
  ime := Reset.ime
  total := Reset.total
  ifReg := Reset.openByte
  ie := Reset.openByte
  lcdc := Reset.openByte
  stat := Reset.stat
  scy := Reset.openByte
  scx := Reset.openByte
  ly := Reset.ly
  bgp := Reset.openByte
  obp0 := Reset.openByte
  obp1 := Reset.openByte
  wy := Reset.openByte
  wx := Reset.openByte
  mode := .oamScan
  clk := Reset.clk
  mem := []
  fb := Vector.replicate 144 (Vector.replicate 160 Reset.openShade)
  cost := Reset.cost
  trace := []
  cfg := Reset.cfg

end Sys2Proof.Machine
end

