-- ==== Sys2Proof/Machine/Flags.lean ====
section
/-! DEFINITION. The flags (R23) and every flag computation of the subset (R27). -/

namespace Sys2Proof.Machine

/-- Zero, bit 7 of F (R23). -/
def State.flagZ (s : State) : Bool := s.f.getLsbD 7

/-- Subtract, bit 6 of F (R23). -/
def State.flagN (s : State) : Bool := s.f.getLsbD 6

/-- Half-carry, bit 5 of F (R23). -/
def State.flagH (s : State) : Bool := s.f.getLsbD 5

/-- Carry, bit 4 of F (R23). -/
def State.flagC (s : State) : Bool := s.f.getLsbD 4

/-- Z=1, N=0, H=0, C=0 (R27). -/
def flagsZero : Byte := 0x80#8

/-- All four flags clear (R27). -/
def flagsNone : Byte := 0x00#8

/-- The flags CP leaves: Zero when equal, everything else clear (R200; not the real console's CP, X1). -/
def compareFlags (x y : Byte) : Byte := if x = y then flagsZero else flagsNone

/-- The flags XOR A leaves (R201). -/
def xorSelfFlags : Byte := flagsZero

/-- The condition `Z` (R125, D37). -/
def State.condZ (s : State) : Bool := s.flagZ

/-- The condition `NZ` (R125, D37). -/
def State.condNZ (s : State) : Bool := !s.flagZ

end Sys2Proof.Machine
end

