-- ==== Sys2Proof/Machine/Memory.lean ====
section
/-! DEFINITION. The stored bytes as a list in one canonical form, and the map from a bus address to
what answers there (20_memory.md R71, R75). -/

namespace Sys2Proof.Machine

/-- What a cell nothing has written reads as. DESIGN CHOICE: 0x00, the spec's simulator default for
every `INIT_*` memory (R62, assumption 4); the ROM image is data of the list, not of this default. -/
def Memory.blank : Byte := 0x00#8

/-- The canonical form: addresses strictly rising, no entry equal to what an unlisted cell reads as,
every address inside the 16-bit space. -/
abbrev Memory.wf (m : Memory) : Prop :=
  m.Pairwise (fun p q => p.1 < q.1) ∧ ∀ p ∈ m, p.2 ≠ Memory.blank ∧ p.1 < 65536

/-- The byte stored at a cell. -/
def Memory.get (m : Memory) (addr : Nat) : Byte :=
  match m with
  | [] => Memory.blank
  | (key, byte) :: rest => if key = addr then byte else Memory.get rest addr

/-- The entry of one cell as a list: none for the byte an unlisted cell reads as. -/
def Memory.entry (addr : Nat) (value : Byte) : Memory :=
  if value = Memory.blank then [] else [(addr, value)]

/-- Stores one byte, keeping the canonical form. -/
def Memory.set (m : Memory) (addr : Nat) (value : Byte) : Memory :=
  match m with
  | [] => Memory.entry addr value
  | (key, byte) :: rest =>
    if addr < key then Memory.entry addr value ++ (key, byte) :: rest
    else if addr = key then Memory.entry addr value ++ rest
    else (key, byte) :: Memory.set rest addr value

/-- The registers that overlay the I/O block (R75). -/
inductive Overlay where
  | interruptFlag | lcdc | stat | scy | scx | ly | bgp | obp0 | obp1 | wy | wx
deriving DecidableEq, Repr

/-- What a bus address decodes to (R71). -/
inductive Region where
  | rom | vram | wram | oam | io | hram
  | overlay (reg : Overlay)
  | interruptEnable
  | unmapped
deriving DecidableEq, Repr

/-- First bus address of video RAM (R71, D5). -/
def vramBase : Nat := 0x8000

/-- First bus address of work RAM (R71, D5). -/
def wramBase : Nat := 0xC000

/-- First bus address of object-attribute memory (R71, D5). -/
def oamBase : Nat := 0xFE00

/-- First bus address of the I/O block (R71, D5). -/
def ioBase : Nat := 0xFF00

/-- First bus address of high RAM (R71, D5). -/
def hramBase : Nat := 0xFF80

/-- The bus address of IE, "the top address" (R71). -/
def ieAddr : Nat := 0xFFFF

/-- The bus address of an overlay register (R75, D6). -/
def Overlay.addr (reg : Overlay) : Nat :=
  match reg with
  | .interruptFlag => 0xFF0F
  | .lcdc => 0xFF40
  | .stat => 0xFF41
  | .scy => 0xFF42
  | .scx => 0xFF43
  | .ly => 0xFF44
  | .bgp => 0xFF47
  | .obp0 => 0xFF48
  | .obp1 => 0xFF49
  | .wy => 0xFF4A
  | .wx => 0xFF4B

/-- Every overlay register. -/
def Overlay.all : List Overlay :=
  [.interruptFlag, .lcdc, .stat, .scy, .scx, .ly, .bgp, .obp0, .obp1, .wy, .wx]

/-- The overlay register at an address, if one stands there (R75). -/
def Overlay.at (addr : Nat) : Option Overlay := Overlay.all.find? fun reg => reg.addr == addr

/-- The address map, on an address as a number (R71): total, and the same for the life of the session. -/
def Region.ofNat (addr : Nat) : Region :=
  if addr < vramBase then .rom
  else if addr < vramBase + 8192 then .vram
  else if addr < wramBase then .unmapped
  else if addr < wramBase + 8192 then .wram
  else if addr < oamBase then .unmapped
  else if addr < oamBase + 160 then .oam
  else if addr < ioBase then .unmapped
  else if addr < hramBase then
    match Overlay.at addr with
    | some reg => .overlay reg
    | none => .io
  else if addr < ieAddr then .hram
  else .interruptEnable

/-- The address map (R71). -/
def Region.of (addr : Word) : Region := Region.ofNat addr.toNat

/-- The regions whose bytes a bus write stores and a bus read returns (R73, R74). -/
def Region.isRam (r : Region) : Bool :=
  match r with
  | .vram | .wram | .oam | .io | .hram => true
  | .rom | .overlay _ | .interruptEnable | .unmapped => false

end Sys2Proof.Machine
end

