-- ==== Sys2Proof/Machine/OpcodeMap.lean ====
section
/-! DEFINITION. The opcode map read as sets of bytes (30_encoding.md R110 to R119): the bit fields of an
opcode byte, the register and pair codes, which bytes have a named row, and how many operand bytes
follow an opcode byte. -/

namespace Sys2Proof

/-- The escape byte (R117). -/
def escapeByte : Byte := 0xCB#8

/-- Bits 7..6 of an opcode byte. -/
def opGroup (op : Byte) : BitVec 2 := op.extractLsb' 6 2

/-- The field `ddd` or `bbb`, bits 5..3 (R112, R124). -/
def opField53 (op : Byte) : BitVec 3 := op.extractLsb' 3 3

/-- The field `sss`, bits 2..0 (R112). -/
def opField20 (op : Byte) : BitVec 3 := op.extractLsb' 0 3

/-- The field `pp`, bits 5..4 (R112). -/
def opField54 (op : Byte) : BitVec 2 := op.extractLsb' 4 2

/-- Bits 3..0, which tell `LD rr,nn` (0001) from `INC rr` (0011) (R112). -/
def opField30 (op : Byte) : BitVec 4 := op.extractLsb' 0 4

/-- The 3-bit register code (R113). Code 6 names no register. -/
def Reg.ofCode (code : BitVec 3) : Option Reg :=
  match code with
  | 0#3 => some .b
  | 1#3 => some .c
  | 2#3 => some .d
  | 3#3 => some .e
  | 4#3 => some .h
  | 5#3 => some .l
  | 7#3 => some .a
  | _ => none

/-- The 2-bit pair code (R114; code 3 = SP is decision D3 of the spec). -/
def Pair.ofCode (code : BitVec 2) : Pair :=
  match code with
  | 0#2 => .bc
  | 1#2 => .de
  | 2#2 => .hl
  | _ => .sp

/-- The opcode bytes of R118 whose row is one byte value (no register field). -/
def exactOpcodes : List Byte :=
  [0x00#8, 0x18#8, 0x20#8, 0x28#8, 0xAF#8, 0xC0#8, 0xC3#8, 0xC9#8, 0xCD#8, 0xE0#8] ++
  [0xEA#8, 0xF0#8, 0xF3#8, 0xFA#8, 0xFE#8, 0xFF#8]

/-- The opcode byte has the layout of `LD r,r'`, with neither code 6 (R112, R113). -/
def isLdRegReg (op : Byte) : Bool :=
  opGroup op == 1#2 && opField53 op != 6#3 && opField20 op != 6#3

/-- The opcode byte has the layout of `LD r,n`, with a register code (R112, R113). -/
def isLdRegImm (op : Byte) : Bool :=
  opGroup op == 0#2 && opField20 op == 6#3 && opField53 op != 6#3

/-- The opcode byte has the layout of `LD rr,nn` (R112). -/
def isLdPairImm (op : Byte) : Bool := opGroup op == 0#2 && opField30 op == 1#4

/-- The opcode byte has the layout of `INC rr` (R112). -/
def isIncPair (op : Byte) : Bool := opGroup op == 0#2 && opField30 op == 3#4

/-- The opcode byte has a named, unprefixed row of R118 (80 values). -/
def isNamedOpcode (op : Byte) : Bool :=
  exactOpcodes.contains op || isLdRegReg op || isLdRegImm op || isLdPairImm op || isIncPair op

/-- The opcode byte takes the unknown-opcode path (R222): no named row, and not the escape byte. -/
def isUnknownOpcode (op : Byte) : Bool := !isNamedOpcode op && op != escapeByte

/-- The second byte after 0xCB has a RES row (R118, R203): `10 bbb sss` with `sss` not 6. -/
def isResByte (op2 : Byte) : Bool := opGroup op2 == 2#2 && opField20 op2 != 6#3

/-- The second byte after 0xCB takes the unknown-escaped-opcode path (R223). -/
def isUnknownEscapedOpcode (op2 : Byte) : Bool := !isResByte op2

/-- The opcode bytes of R118 that two immediate bytes follow, `LD rr,nn` apart (format I16). -/
def wideOpcodes : List Byte := [0xC3#8, 0xCD#8, 0xEA#8, 0xFA#8]

/-- The opcode bytes of R118 that one more byte follows, `LD r,n` apart (formats I8, R8, CB). -/
def shortOpcodes : List Byte := [0x18#8, 0x20#8, 0x28#8, 0xE0#8, 0xF0#8, 0xFE#8, 0xCB#8]

/-- How many bytes follow the opcode byte, 0, 1 or 2: "The length is a function of the opcode byte
alone" (R110). -/
def operandBytes (op : Byte) : Nat :=
  if wideOpcodes.contains op || isLdPairImm op then 2
  else if shortOpcodes.contains op || isLdRegImm op then 1
  else 0

end Sys2Proof
end

