-- ==== Sys2Proof/WellFormed.lean ====
section
/-! DEFINITION. The terms of Instr that stand for an instruction of the machine. Every operand value
of a named instruction is legal; the two fallback rows admit only the bytes no named row claims. -/

namespace Sys2Proof

/-- A fallback term is well formed when its byte belongs to the fallback row: 175 opcode bytes (R222)
and 200 second bytes (R223). Every other term is well formed (R115, R116: no immediate is restricted). -/
def Instr.wellFormed : Instr → Bool
  | .unknownOpcode op => isUnknownOpcode op
  | .unknownEscapedOpcode op2 => isUnknownEscapedOpcode op2
  | .nop | .ldBcNn _ | .ldDeNn _ | .ldHlNn _ | .ldSpNn _ | .incBc | .incDe | .incHl | .incSp
  | .ldBN _ | .ldCN _ | .ldDN _ | .ldEN _ | .ldHN _ | .ldLN _ | .ldAN _ | .jrN _ | .jrNzN _
  | .jrZN _ | .ldBB | .ldBC | .ldBD | .ldBE | .ldBH | .ldBL | .ldBA | .ldCB | .ldCC | .ldCD
  | .ldCE | .ldCH | .ldCL | .ldCA | .ldDB | .ldDC | .ldDD | .ldDE | .ldDH | .ldDL | .ldDA
  | .ldEB | .ldEC | .ldED | .ldEE | .ldEH | .ldEL | .ldEA | .ldHB | .ldHC | .ldHD | .ldHE
  | .ldHH | .ldHL | .ldHA | .ldLB | .ldLC | .ldLD | .ldLE | .ldLH | .ldLL | .ldLA | .ldAB
  | .ldAC | .ldAD | .ldAE | .ldAH | .ldAL | .ldAA | .xorA | .retNz | .jpNn _ | .ret | .callNn _
  | .ldhMemNA _ | .ldMemNnA _ | .ldhAMemN _ | .di | .ldAMemNn _ | .cpN _ | .rst38 | .res0B
  | .res0C | .res0D | .res0E | .res0H | .res0L | .res0A | .res1B | .res1C | .res1D | .res1E
  | .res1H | .res1L | .res1A | .res2B | .res2C | .res2D | .res2E | .res2H | .res2L | .res2A
  | .res3B | .res3C | .res3D | .res3E | .res3H | .res3L | .res3A | .res4B | .res4C | .res4D
  | .res4E | .res4H | .res4L | .res4A | .res5B | .res5C | .res5D | .res5E | .res5H | .res5L
  | .res5A | .res6B | .res6C | .res6D | .res6E | .res6H | .res6L | .res6A | .res7B | .res7C
  | .res7D | .res7E | .res7H | .res7L | .res7A | .escapePrefix => true

end Sys2Proof
end

