-- ==== Sys2Proof/Decode.lean ====
section
/-! DEFINITION. The decoder, total on any bytes (R121), the encoder written from the opcode map (R118),
and the reading of a table word the host asks for. -/

namespace Sys2Proof

/-- The low byte of a 16-bit value. -/
def lowByte (w : Word) : Byte := w.extractLsb' 0 8

/-- The high byte of a 16-bit value. -/
def highByte (w : Word) : Byte := w.extractLsb' 8 8

/-- `hi:lo` (R9). -/
def wordOfBytes (hi lo : Byte) : Word := hi ++ lo

/-- The `LD r,r'` row with destination `dst` and source `src` (R180). -/
def Instr.ldRegReg (dst src : Reg) : Instr :=
  match dst, src with
  | .b, .b => .ldBB
  | .b, .c => .ldBC
  | .b, .d => .ldBD
  | .b, .e => .ldBE
  | .b, .h => .ldBH
  | .b, .l => .ldBL
  | .b, .a => .ldBA
  | .c, .b => .ldCB
  | .c, .c => .ldCC
  | .c, .d => .ldCD
  | .c, .e => .ldCE
  | .c, .h => .ldCH
  | .c, .l => .ldCL
  | .c, .a => .ldCA
  | .d, .b => .ldDB
  | .d, .c => .ldDC
  | .d, .d => .ldDD
  | .d, .e => .ldDE
  | .d, .h => .ldDH
  | .d, .l => .ldDL
  | .d, .a => .ldDA
  | .e, .b => .ldEB
  | .e, .c => .ldEC
  | .e, .d => .ldED
  | .e, .e => .ldEE
  | .e, .h => .ldEH
  | .e, .l => .ldEL
  | .e, .a => .ldEA
  | .h, .b => .ldHB
  | .h, .c => .ldHC
  | .h, .d => .ldHD
  | .h, .e => .ldHE
  | .h, .h => .ldHH
  | .h, .l => .ldHL
  | .h, .a => .ldHA
  | .l, .b => .ldLB
  | .l, .c => .ldLC
  | .l, .d => .ldLD
  | .l, .e => .ldLE
  | .l, .h => .ldLH
  | .l, .l => .ldLL
  | .l, .a => .ldLA
  | .a, .b => .ldAB
  | .a, .c => .ldAC
  | .a, .d => .ldAD
  | .a, .e => .ldAE
  | .a, .h => .ldAH
  | .a, .l => .ldAL
  | .a, .a => .ldAA

/-- The `LD r,n` row with destination `dst` (R181). -/
def Instr.ldRegImm (dst : Reg) (n : Byte) : Instr :=
  match dst with
  | .b => .ldBN n
  | .c => .ldCN n
  | .d => .ldDN n
  | .e => .ldEN n
  | .h => .ldHN n
  | .l => .ldLN n
  | .a => .ldAN n

/-- The `LD rr,nn` row of a pair (R182). -/
def Instr.ldPairImm (p : Pair) (nn : Word) : Instr :=
  match p with
  | .bc => .ldBcNn nn
  | .de => .ldDeNn nn
  | .hl => .ldHlNn nn
  | .sp => .ldSpNn nn

/-- The `INC rr` row of a pair (R202). -/
def Instr.incPair (p : Pair) : Instr :=
  match p with
  | .bc => .incBc
  | .de => .incDe
  | .hl => .incHl
  | .sp => .incSp

/-- The `RES b,r` row of a bit number and a register (R203). -/
def Instr.resBitReg (bit : BitVec 3) (r : Reg) : Instr :=
  match bit, r with
  | 0#3, .b => .res0B
  | 0#3, .c => .res0C
  | 0#3, .d => .res0D
  | 0#3, .e => .res0E
  | 0#3, .h => .res0H
  | 0#3, .l => .res0L
  | 0#3, .a => .res0A
  | 1#3, .b => .res1B
  | 1#3, .c => .res1C
  | 1#3, .d => .res1D
  | 1#3, .e => .res1E
  | 1#3, .h => .res1H
  | 1#3, .l => .res1L
  | 1#3, .a => .res1A
  | 2#3, .b => .res2B
  | 2#3, .c => .res2C
  | 2#3, .d => .res2D
  | 2#3, .e => .res2E
  | 2#3, .h => .res2H
  | 2#3, .l => .res2L
  | 2#3, .a => .res2A
  | 3#3, .b => .res3B
  | 3#3, .c => .res3C
  | 3#3, .d => .res3D
  | 3#3, .e => .res3E
  | 3#3, .h => .res3H
  | 3#3, .l => .res3L
  | 3#3, .a => .res3A
  | 4#3, .b => .res4B
  | 4#3, .c => .res4C
  | 4#3, .d => .res4D
  | 4#3, .e => .res4E
  | 4#3, .h => .res4H
  | 4#3, .l => .res4L
  | 4#3, .a => .res4A
  | 5#3, .b => .res5B
  | 5#3, .c => .res5C
  | 5#3, .d => .res5D
  | 5#3, .e => .res5E
  | 5#3, .h => .res5H
  | 5#3, .l => .res5L
  | 5#3, .a => .res5A
  | 6#3, .b => .res6B
  | 6#3, .c => .res6C
  | 6#3, .d => .res6D
  | 6#3, .e => .res6E
  | 6#3, .h => .res6H
  | 6#3, .l => .res6L
  | 6#3, .a => .res6A
  | _, .b => .res7B
  | _, .c => .res7C
  | _, .d => .res7D
  | _, .e => .res7E
  | _, .h => .res7H
  | _, .l => .res7L
  | _, .a => .res7A

/-- The rows of R118 whose opcode byte is one value, with the bytes that follow it, low first (R115). -/
def decodeExact (op b1 b2 : Byte) : Option Instr :=
  match op with
  | 0x00#8 => some .nop
  | 0x18#8 => some (.jrN b1)
  | 0x20#8 => some (.jrNzN b1)
  | 0x28#8 => some (.jrZN b1)
  | 0xAF#8 => some .xorA
  | 0xC0#8 => some .retNz
  | 0xC3#8 => some (.jpNn (wordOfBytes b2 b1))
  | 0xC9#8 => some .ret
  | 0xCD#8 => some (.callNn (wordOfBytes b2 b1))
  | 0xE0#8 => some (.ldhMemNA b1)
  | 0xEA#8 => some (.ldMemNnA (wordOfBytes b2 b1))
  | 0xF0#8 => some (.ldhAMemN b1)
  | 0xF3#8 => some .di
  | 0xFA#8 => some (.ldAMemNn (wordOfBytes b2 b1))
  | 0xFE#8 => some (.cpN b1)
  | 0xFF#8 => some .rst38
  | _ => none

/-- The rows of R112 whose opcode byte holds a register or pair field. Code 6 names no register (R113). -/
def decodeFields (op b1 b2 : Byte) : Option Instr :=
  match opGroup op with
  | 1#2 =>
    match Reg.ofCode (opField53 op), Reg.ofCode (opField20 op) with
    | some dst, some src => some (Instr.ldRegReg dst src)
    | _, _ => none
  | 0#2 =>
    if opField20 op = 6#3 then (Reg.ofCode (opField53 op)).map fun dst => Instr.ldRegImm dst b1
    else if opField30 op = 1#4 then some (Instr.ldPairImm (Pair.ofCode (opField54 op)) (wordOfBytes b2 b1))
    else if opField30 op = 3#4 then some (Instr.incPair (Pair.ofCode (opField54 op)))
    else none
  | _ => none

/-- The row of an opcode byte other than the escape byte (R121, steps 2 and 3). -/
def decodeUnprefixed (op b1 b2 : Byte) : Instr :=
  (decodeExact op b1 b2).getD ((decodeFields op b1 b2).getD (.unknownOpcode op))

/-- The bit number and register of a RES second byte `10 bbb sss` (R203); none for any other byte. -/
def resOperands (op2 : Byte) : Option (BitVec 3 × Reg) :=
  if opGroup op2 = 2#2 then (Reg.ofCode (opField20 op2)).map fun r => (opField53 op2, r) else none

/-- The row of a second byte after the escape byte (R121, step 1). -/
def decodeEscaped (op2 : Byte) : Instr :=
  match resOperands op2 with
  | some (bit, r) => Instr.resBitReg bit r
  | none => .unknownEscapedOpcode op2

/-- The dispatch of R121 on an opcode byte and the two bytes after it; a byte beyond the instruction's
length is not looked at. -/
def decodeBytes (op b1 b2 : Byte) : Instr :=
  if op = escapeByte then decodeEscaped b1 else decodeUnprefixed op b1 b2

/-- Why a byte list does not decode. No encoding is refused (R119); a list may be too short. -/
inductive DecodeError where
  /-- There is no opcode byte. -/
  | noBytes
  /-- The opcode byte is there and its immediate bytes are not all there. -/
  | truncated (op : Byte)
deriving DecidableEq, Repr

/-- Decodes the instruction at the head of a byte list and gives the rest. The escape byte at the very
end of the list is answered by its own table row, the prefix whose second byte is still to be read. -/
def decode (bytes : List Byte) : Except DecodeError (Instr × List Byte) :=
  match bytes with
  | [] => .error .noBytes
  | op :: rest =>
    match operandBytes op, rest with
    | 0, rest => .ok (decodeBytes op 0#8 0#8, rest)
    | 1, b1 :: rest => .ok (decodeBytes op b1 0#8, rest)
    | 2, b1 :: b2 :: rest => .ok (decodeBytes op b1 b2, rest)
    | _, _ => if op = escapeByte then .ok (.escapePrefix, []) else .error (.truncated op)

/-- The bytes of an instruction, lowest address first, from the opcode map (R118) and the formats
(R111). The prefix row is its one byte. -/
def encode (i : Instr) : List Byte :=
  match i with
  | .nop => [0x00#8]
  | .ldBcNn nn => [0x01#8, lowByte nn, highByte nn]
  | .ldDeNn nn => [0x11#8, lowByte nn, highByte nn]
  | .ldHlNn nn => [0x21#8, lowByte nn, highByte nn]
  | .ldSpNn nn => [0x31#8, lowByte nn, highByte nn]
  | .incBc => [0x03#8]
  | .incDe => [0x13#8]
  | .incHl => [0x23#8]
  | .incSp => [0x33#8]
  | .ldBN n => [0x06#8, n]
  | .ldCN n => [0x0E#8, n]
  | .ldDN n => [0x16#8, n]
  | .ldEN n => [0x1E#8, n]
  | .ldHN n => [0x26#8, n]
  | .ldLN n => [0x2E#8, n]
  | .ldAN n => [0x3E#8, n]
  | .jrN e => [0x18#8, e]
  | .jrNzN e => [0x20#8, e]
  | .jrZN e => [0x28#8, e]
  | .ldBB => [0x40#8]
  | .ldBC => [0x41#8]
  | .ldBD => [0x42#8]
  | .ldBE => [0x43#8]
  | .ldBH => [0x44#8]
  | .ldBL => [0x45#8]
  | .ldBA => [0x47#8]
  | .ldCB => [0x48#8]
  | .ldCC => [0x49#8]
  | .ldCD => [0x4A#8]
  | .ldCE => [0x4B#8]
  | .ldCH => [0x4C#8]
  | .ldCL => [0x4D#8]
  | .ldCA => [0x4F#8]
  | .ldDB => [0x50#8]
  | .ldDC => [0x51#8]
  | .ldDD => [0x52#8]
  | .ldDE => [0x53#8]
  | .ldDH => [0x54#8]
  | .ldDL => [0x55#8]
  | .ldDA => [0x57#8]
  | .ldEB => [0x58#8]
  | .ldEC => [0x59#8]
  | .ldED => [0x5A#8]
  | .ldEE => [0x5B#8]
  | .ldEH => [0x5C#8]
  | .ldEL => [0x5D#8]
  | .ldEA => [0x5F#8]
  | .ldHB => [0x60#8]
  | .ldHC => [0x61#8]
  | .ldHD => [0x62#8]
  | .ldHE => [0x63#8]
  | .ldHH => [0x64#8]
  | .ldHL => [0x65#8]
  | .ldHA => [0x67#8]
  | .ldLB => [0x68#8]
  | .ldLC => [0x69#8]
  | .ldLD => [0x6A#8]
  | .ldLE => [0x6B#8]
  | .ldLH => [0x6C#8]
  | .ldLL => [0x6D#8]
  | .ldLA => [0x6F#8]
  | .ldAB => [0x78#8]
  | .ldAC => [0x79#8]
  | .ldAD => [0x7A#8]
  | .ldAE => [0x7B#8]
  | .ldAH => [0x7C#8]
  | .ldAL => [0x7D#8]
  | .ldAA => [0x7F#8]
  | .xorA => [0xAF#8]
  | .retNz => [0xC0#8]
  | .jpNn nn => [0xC3#8, lowByte nn, highByte nn]
  | .ret => [0xC9#8]
  | .callNn nn => [0xCD#8, lowByte nn, highByte nn]
  | .ldhMemNA n => [0xE0#8, n]
  | .ldMemNnA nn => [0xEA#8, lowByte nn, highByte nn]
  | .ldhAMemN n => [0xF0#8, n]
  | .di => [0xF3#8]
  | .ldAMemNn nn => [0xFA#8, lowByte nn, highByte nn]
  | .cpN n => [0xFE#8, n]
  | .rst38 => [0xFF#8]
  | .res0B => [0xCB#8, 0x80#8]
  | .res0C => [0xCB#8, 0x81#8]
  | .res0D => [0xCB#8, 0x82#8]
  | .res0E => [0xCB#8, 0x83#8]
  | .res0H => [0xCB#8, 0x84#8]
  | .res0L => [0xCB#8, 0x85#8]
  | .res0A => [0xCB#8, 0x87#8]
  | .res1B => [0xCB#8, 0x88#8]
  | .res1C => [0xCB#8, 0x89#8]
  | .res1D => [0xCB#8, 0x8A#8]
  | .res1E => [0xCB#8, 0x8B#8]
  | .res1H => [0xCB#8, 0x8C#8]
  | .res1L => [0xCB#8, 0x8D#8]
  | .res1A => [0xCB#8, 0x8F#8]
  | .res2B => [0xCB#8, 0x90#8]
  | .res2C => [0xCB#8, 0x91#8]
  | .res2D => [0xCB#8, 0x92#8]
  | .res2E => [0xCB#8, 0x93#8]
  | .res2H => [0xCB#8, 0x94#8]
  | .res2L => [0xCB#8, 0x95#8]
  | .res2A => [0xCB#8, 0x97#8]
  | .res3B => [0xCB#8, 0x98#8]
  | .res3C => [0xCB#8, 0x99#8]
  | .res3D => [0xCB#8, 0x9A#8]
  | .res3E => [0xCB#8, 0x9B#8]
  | .res3H => [0xCB#8, 0x9C#8]
  | .res3L => [0xCB#8, 0x9D#8]
  | .res3A => [0xCB#8, 0x9F#8]
  | .res4B => [0xCB#8, 0xA0#8]
  | .res4C => [0xCB#8, 0xA1#8]
  | .res4D => [0xCB#8, 0xA2#8]
  | .res4E => [0xCB#8, 0xA3#8]
  | .res4H => [0xCB#8, 0xA4#8]
  | .res4L => [0xCB#8, 0xA5#8]
  | .res4A => [0xCB#8, 0xA7#8]
  | .res5B => [0xCB#8, 0xA8#8]
  | .res5C => [0xCB#8, 0xA9#8]
  | .res5D => [0xCB#8, 0xAA#8]
  | .res5E => [0xCB#8, 0xAB#8]
  | .res5H => [0xCB#8, 0xAC#8]
  | .res5L => [0xCB#8, 0xAD#8]
  | .res5A => [0xCB#8, 0xAF#8]
  | .res6B => [0xCB#8, 0xB0#8]
  | .res6C => [0xCB#8, 0xB1#8]
  | .res6D => [0xCB#8, 0xB2#8]
  | .res6E => [0xCB#8, 0xB3#8]
  | .res6H => [0xCB#8, 0xB4#8]
  | .res6L => [0xCB#8, 0xB5#8]
  | .res6A => [0xCB#8, 0xB7#8]
  | .res7B => [0xCB#8, 0xB8#8]
  | .res7C => [0xCB#8, 0xB9#8]
  | .res7D => [0xCB#8, 0xBA#8]
  | .res7E => [0xCB#8, 0xBB#8]
  | .res7H => [0xCB#8, 0xBC#8]
  | .res7L => [0xCB#8, 0xBD#8]
  | .res7A => [0xCB#8, 0xBF#8]
  | .escapePrefix => [escapeByte]
  | .unknownOpcode op => [op]
  | .unknownEscapedOpcode op2 => [escapeByte, op2]

/-- The length of an instruction in bytes (R110, R324). The prefix row counts its second byte. -/
def Instr.length (i : Instr) : Nat :=
  match i with
  | .nop | .incBc | .incDe | .incHl | .incSp | .ldBB | .ldBC | .ldBD | .ldBE | .ldBH | .ldBL
  | .ldBA | .ldCB | .ldCC | .ldCD | .ldCE | .ldCH | .ldCL | .ldCA | .ldDB | .ldDC | .ldDD
  | .ldDE | .ldDH | .ldDL | .ldDA | .ldEB | .ldEC | .ldED | .ldEE | .ldEH | .ldEL | .ldEA
  | .ldHB | .ldHC | .ldHD | .ldHE | .ldHH | .ldHL | .ldHA | .ldLB | .ldLC | .ldLD | .ldLE
  | .ldLH | .ldLL | .ldLA | .ldAB | .ldAC | .ldAD | .ldAE | .ldAH | .ldAL | .ldAA | .xorA
  | .retNz | .ret | .di | .rst38 | .unknownOpcode _ => 1
  | .ldBN _ | .ldCN _ | .ldDN _ | .ldEN _ | .ldHN _ | .ldLN _ | .ldAN _ | .jrN _ | .jrNzN _
  | .jrZN _ | .ldhMemNA _ | .ldhAMemN _ | .cpN _ | .res0B | .res0C | .res0D | .res0E | .res0H
  | .res0L | .res0A | .res1B | .res1C | .res1D | .res1E | .res1H | .res1L | .res1A | .res2B
  | .res2C | .res2D | .res2E | .res2H | .res2L | .res2A | .res3B | .res3C | .res3D | .res3E
  | .res3H | .res3L | .res3A | .res4B | .res4C | .res4D | .res4E | .res4H | .res4L | .res4A
  | .res5B | .res5C | .res5D | .res5E | .res5H | .res5L | .res5A | .res6B | .res6C | .res6D
  | .res6E | .res6H | .res6L | .res6A | .res7B | .res7C | .res7D | .res7E | .res7H | .res7L
  | .res7A | .escapePrefix | .unknownEscapedOpcode _ => 2
  | .ldBcNn _ | .ldDeNn _ | .ldHlNn _ | .ldSpNn _ | .jpNn _ | .callNn _ | .ldMemNnA _
  | .ldAMemNn _ => 3

/-- The three bytes that the host's table word stands for, lowest address first. The first byte of an
instruction is bits 7..0. The table numbers its prefixed rows over the second byte (30_encoding.md: "or
over the second byte when prefixed") and gives the prefix as bits 15..8 of its last row or not at all,
so a word with 0xCB in bits 15..8, and a one-byte word that only a RES row has, stand for 0xCB and
that byte (assumption 3). -/
def tableBytes (nbits w : Nat) : List Byte :=
  let b0 := BitVec.ofNat 8 w
  let b1 := BitVec.ofNat 8 (w / 256)
  let b2 := BitVec.ofNat 8 (w / 65536)
  if b1 = escapeByte ∧ b0 ≠ escapeByte then [escapeByte, b0, 0#8]
  else if nbits ≤ 8 ∧ isUnknownOpcode b0 = true ∧ isResByte b0 = true then [escapeByte, b0, 0#8]
  else [b0, b1, b2]

/-- The instruction the decoder reads from a table word. The one-byte word 0xCB is the prefix row by
itself; on the machine its second byte is the zero that follows it (assumption 3). -/
def decodeTableWord (nbits w : Nat) : Option Instr :=
  let bytes := tableBytes nbits w
  let given := if nbits ≤ 8 ∧ w = 0xCB then bytes.take 1 else bytes
  match decode given with
  | .ok (i, _) => some i
  | .error _ => none

end Sys2Proof
end

