-- ==== Sys2Proof/Machine/Operands.lean ====
section
/-! DEFINITION. The operand forms: register, pair, immediate, absolute, high page, relative (R187, R116). -/

namespace Sys2Proof.Machine

/-- Reads the register an instruction names, `x[i]` (R10, R113). -/
def State.getReg (s : State) (r : Reg) : Byte :=
  match r with
  | .b => s.b
  | .c => s.c
  | .d => s.d
  | .e => s.e
  | .h => s.h
  | .l => s.l
  | .a => s.a

/-- Writes the register an instruction names, `x[i] <- v` (R10, R113). -/
def State.setReg (s : State) (r : Reg) (v : Byte) : State :=
  match r with
  | .b => { s with b := v }
  | .c => { s with c := v }
  | .d => { s with d := v }
  | .e => { s with e := v }
  | .h => { s with h := v }
  | .l => { s with l := v }
  | .a => { s with a := v }

/-- Reads a pair, first-named register high (R21, D4), or the stack pointer. -/
def State.getPair (s : State) (p : Pair) : Word :=
  match p with
  | .bc => wordOfBytes s.b s.c
  | .de => wordOfBytes s.d s.e
  | .hl => wordOfBytes s.h s.l
  | .sp => s.sp

/-- Writes a pair, which writes its two registers (R21), or the stack pointer. -/
def State.setPair (s : State) (p : Pair) (v : Word) : State :=
  match p with
  | .bc => { s with b := highByte v, c := lowByte v }
  | .de => { s with d := highByte v, e := lowByte v }
  | .hl => { s with h := highByte v, l := lowByte v }
  | .sp => { s with sp := v }

/-- `sext_16` (R9). -/
def signExtend16 (v : Byte) : Word := v.signExtend 16

/-- `zext_16` (R9). -/
def zeroExtend16 (v : Byte) : Word := v.zeroExtend 16

/-- The target of a relative jump at `pc`: the offset is added after the two-byte instruction (R116). -/
def relativeTarget (pc : Word) (e : Byte) : Word := pc + 2#16 + signExtend16 e

/-- The high-page effective address `0xFF00 + n` (R185, D13). -/
def highPage (n : Byte) : Word := 0xFF00#16 + zeroExtend16 n

/-- `0xFF ^ (1 << bbb)`, the mask that clears one bit (R203). -/
def clearMask (bit : BitVec 3) : Byte := 0xFF#8 ^^^ (1#8 <<< bit.toNat)

/-- Clears one bit of a byte (R203). -/
def clearBit (bit : BitVec 3) (v : Byte) : Byte := v &&& clearMask bit

end Sys2Proof.Machine
end

