-- ==== Sys2Proof/Machine/Ops.lean ====
section
/-! DEFINITION. The shared operations: the bus (20_memory.md), the stack (R160), ending an instruction,
and the one forced transfer of control, the watchdog (R141, R142). -/

namespace Sys2Proof.Machine

/-! The bus -/

/-- Appends an observability event (R283). -/
def State.emit (s : State) (ev : Event) : State := { s with trace := s.trace ++ [ev] }

/-- The value of an overlay register (R75, the column "read returns"). -/
def State.getOverlay (s : State) (reg : Overlay) : Byte :=
  match reg with
  | .interruptFlag => s.ifReg
  | .lcdc => s.lcdc
  | .stat => s.stat
  | .scy => s.scy
  | .scx => s.scx
  | .ly => s.ly
  | .bgp => s.bgp
  | .obp0 => s.obp0
  | .obp1 => s.obp1
  | .wy => s.wy
  | .wx => s.wx

/-- What a bus write to STAT stores: bits 7..2 of the value, bits 1..0 kept (R33, D25). -/
def statWrite (old v : Byte) : Byte := (v &&& 0xFC#8) ||| (old &&& 0x03#8)

/-- A bus write to an overlay register (R75, the column "write `v` does"); LY ignores it (R35). -/
def State.setOverlay (s : State) (reg : Overlay) (v : Byte) : State :=
  match reg with
  | .interruptFlag => { s with ifReg := v }
  | .lcdc => { s with lcdc := v }
  | .stat => { s with stat := statWrite s.stat v }
  | .scy => { s with scy := v }
  | .scx => { s with scx := v }
  | .ly => s
  | .bgp => { s with bgp := v }
  | .obp0 => { s with obp0 := v }
  | .obp1 => { s with obp1 := v }
  | .wy => { s with wy := v }
  | .wx => { s with wx := v }

/-- The byte the bus returns for an address (R71 to R75, R80). -/
def busRead (addr : Word) (s : State) : Byte :=
  match Region.of addr with
  | .rom => if addr.toNat < s.cfg.romLen then s.mem.get addr.toNat else 0x00#8
  | .vram | .wram | .oam | .io | .hram => s.mem.get addr.toNat
  | .overlay reg => s.getOverlay reg
  | .interruptEnable => s.ie
  | .unmapped => 0x00#8

/-- A read of this address is a fail-soft miss: no region covers it (R80), or it lies in the ROM region
beyond the image (R72, D26). -/
def readMisses (addr : Word) (s : State) : Bool :=
  match Region.of addr with
  | .unmapped => true
  | .rom => s.cfg.romLen ≤ addr.toNat
  | .vram | .wram | .oam | .io | .hram | .overlay _ | .interruptEnable => false

/-- What a bus read leaves behind: at most one event, and no state of the machine (R76). -/
def noteRead (addr : Word) (s : State) : State :=
  if readMisses addr s then s.emit (.unmappedRead addr) else s

/-- `MemRead(a, 1)` (R76): the byte, and the state with the read reported if it missed. -/
def memRead (addr : Word) (s : State) : Byte × State := (busRead addr s, noteRead addr s)

/-- `MemWrite(a, 1, v)` (R77): at most one cell or one register changes; a ROM write is a silent no-op
(R78), a write no region covers is discarded and reported (R80). -/
def memWrite (addr : Word) (v : Byte) (s : State) : State :=
  match Region.of addr with
  | .rom => s
  | .vram | .wram | .oam | .io | .hram => { s with mem := s.mem.set addr.toNat v }
  | .overlay reg => s.setOverlay reg v
  | .interruptEnable => { s with ie := v }
  | .unmapped => s.emit (.unmappedWrite addr v)

/-! The stack -/

/-- `Push16` (R160, D12): high byte at `sp - 1`, then low byte at `sp - 2`, then the pointer moves. -/
def push16 (v : Word) (s : State) : State :=
  let stored := memWrite (s.sp - 2#16) (lowByte v) (memWrite (s.sp - 1#16) (highByte v) s)
  { stored with sp := s.sp - 2#16 }

/-- `Pop16` (R160, D12): low byte at `sp`, high byte at `sp + 1`, then the pointer moves. -/
def pop16 (s : State) : Word × State :=
  let (lo, s1) := memRead s.sp s
  let (hi, s2) := memRead (s1.sp + 1#16) s1
  (wordOfBytes hi lo, { s2 with sp := s2.sp + 2#16 })

/-! The end of an instruction -/

/-- The pc advances by the instruction's length, and the cost is returned (R25, R147). -/
def State.advance (s : State) (len : Word) (cost : Byte) : State :=
  { s with pc := s.pc + len, cost := cost }

/-- The instruction sets the pc itself (R25, R147). -/
def State.jump (s : State) (target : Word) (cost : Byte) : State :=
  { s with pc := target, cost := cost }

/-! The watchdog, the only forced transfer of control (R288) -/

/-- The address that triggers the watchdog, `WATCHDOG_PC` (R6, R141). -/
def watchdogPc : Word := 0x0038#16

/-- The address control is forced to (R142), which is also the reset vector (R63). -/
def restartPc : Word := 0x0100#16

/-- `WATCHDOG_COST` (R6, R142). -/
def watchdogCost : Byte := 20#8

/-- `WATCHDOG_LCDC`: any byte whose bits 7, 1 and 0 are 1 (R6, R142, D16). -/
def forcedLcdc (cfg : Config) : Byte := cfg.watchdogLcdcOpen ||| 0x83#8

/-- The watchdog condition (R141): strictly greater (D32), on the state the previous step left. -/
def watchdogCondition (s : State) : Bool := s.pc == watchdogPc || s.cfg.watchdogThreshold < s.total

/-- The watchdog effect (R142): six pieces of state are forced, nothing is saved (R288). -/
def watchdogEntry (s : State) : State :=
  { s with
    pc := restartPc
    ime := true
    ifReg := 0xFF#8
    ie := 0xFF#8
    lcdc := forcedLcdc s.cfg
    bgp := s.cfg.watchdogBgp
    cost := watchdogCost }

end Sys2Proof.Machine
end

