-- ==== Sys2Proof/Machine/Compositor.lean ====
section
/-! DEFINITION. The scanline compositor `render_scanline(y)` (46_ppu_compositing.md). Each pixel of the
row is computed from the registers, VRAM and OAM as they stand; a sprite's pixel depends on the frame
buffer only at that same pixel (R267), so the row is a function of its column. -/

namespace Sys2Proof.Machine

/-! LCDC bits (R32, D7) -/

/-- LCDC bit 7. -/
def State.displayEnable (s : State) : Bool := s.lcdc.getLsbD 7

/-- LCDC bit 6, the window tile map. -/
def State.windowMap (s : State) : Bool := s.lcdc.getLsbD 6

/-- LCDC bit 5. -/
def State.windowEnable (s : State) : Bool := s.lcdc.getLsbD 5

/-- LCDC bit 4, unsigned tile data from the low base. -/
def State.tileDataLow (s : State) : Bool := s.lcdc.getLsbD 4

/-- LCDC bit 3, the background tile map. -/
def State.backgroundMap (s : State) : Bool := s.lcdc.getLsbD 3

/-- LCDC bit 2, sprites of 16 rows. -/
def State.tallSprites (s : State) : Bool := s.lcdc.getLsbD 2

/-- LCDC bit 1. -/
def State.spriteEnable (s : State) : Bool := s.lcdc.getLsbD 1

/-- LCDC bit 0. -/
def State.backgroundEnable (s : State) : Bool := s.lcdc.getLsbD 0

/-! Tiles -/

/-- `VRAM[off]`, read directly and not through the bus (R90). -/
def State.vram (s : State) (off : Nat) : Byte := s.mem.get (vramBase + off)

/-- `OAM[off]`, read directly (R90). -/
def State.oam (s : State) (off : Nat) : Byte := s.mem.get (oamBase + off)

/-- The VRAM offset of a tile map by its select bit (R254, D9). -/
def mapOffset (second : Bool) : Nat := if second then 0x1C00 else 0x1800

/-- The tile index of a map at a map coordinate: 32 rows of 32 entries (R254). -/
def State.tileIndex (s : State) (second : Bool) (mx my : Nat) : Byte :=
  s.vram (mapOffset second + my / 8 * 32 + mx / 8)

/-- The VRAM offset of a tile's data (R255, D9): unsigned from the low base, or signed from the middle. -/
def tileOffset (unsignedMode : Bool) (idx : Byte) : Nat :=
  if unsignedMode then idx.toNat * 16 else (0x0800 + (idx.toInt + 128) * 16).toNat

/-- The 2-bit colour index at a bit position of two bitplane bytes, first byte low (R256, D10). -/
def bitplaneColour (p0 p1 : Byte) (pos : Nat) : BitVec 2 :=
  BitVec.ofBool (p1.getLsbD pos) ++ BitVec.ofBool (p0.getLsbD pos)

/-- The colour index of one pixel of a tile, columns counted from the left (R256). -/
def State.tilePixel (s : State) (tileOff line column : Nat) : BitVec 2 :=
  bitplaneColour (s.vram (tileOff + 2 * line)) (s.vram (tileOff + 2 * line + 1)) (7 - column)

/-- The shade of a colour index under a palette (R257, D10). -/
def shade (palette : Byte) (ci : BitVec 2) : Shade := (palette >>> (2 * ci.toNat)).setWidth 2

/-- The colour index a map shows at a map coordinate (R254 to R256). -/
def State.mapColour (s : State) (second : Bool) (mx my : Nat) : BitVec 2 :=
  s.tilePixel (tileOffset s.tileDataLow (s.tileIndex second mx my)) (my % 8) (mx % 8)

/-! Background and window -/

/-- `bg_colour(x, y)`: the background plane wraps modulo 256 in both directions (R253). -/
def State.backgroundColour (s : State) (x y : Nat) : BitVec 2 :=
  s.mapColour s.backgroundMap ((x + s.scx.toNat) % 256) ((y + s.scy.toNat) % 256)

/-- The pixel after step 2 (R252): colour 0 when the background is off. -/
def State.backgroundPixel (s : State) (x y : Nat) : Shade :=
  if s.backgroundEnable then shade s.bgp (s.backgroundColour x y) else 0#2

/-- The window covers this pixel (R259, R260, D19, D20). -/
def State.windowCovers (s : State) (x y : Nat) : Bool :=
  s.windowEnable && decide (s.wy.toNat ≤ y) && decide (s.wx.toNat ≤ x + 7)

/-- The window's colour index at a screen pixel it covers (R260). -/
def State.windowColour (s : State) (x y : Nat) : BitVec 2 :=
  s.mapColour s.windowMap (x + 7 - s.wx.toNat) (y - s.wy.toNat)

/-- The pixel after step 3: window pixels of colour index 0 are transparent (R261, X2). -/
def State.windowPixel (s : State) (x y : Nat) (below : Shade) : Shade :=
  if s.windowCovers x y ∧ s.windowColour x y ≠ 0#2 then shade s.bgp (s.windowColour x y) else below

/-! Sprites: a sprite is its number 0..39, its four bytes stand in OAM (R47, D8) -/

/-- The Y byte less its bias of 16. -/
def State.spriteTop (s : State) (i : Nat) : Int := (s.oam (4 * i)).toNat - 16

/-- The X byte, the sort key of R264. -/
def State.spriteX (s : State) (i : Nat) : Nat := (s.oam (4 * i + 1)).toNat

/-- The X byte less its bias of 8. -/
def State.spriteLeft (s : State) (i : Nat) : Int := s.spriteX i - 8

/-- The tile byte. -/
def State.spriteTile (s : State) (i : Nat) : Byte := s.oam (4 * i + 2)

/-- The attribute byte: bit 7 background priority, 6 Y flip, 5 X flip, 4 palette. -/
def State.spriteAttr (s : State) (i : Nat) : Byte := s.oam (4 * i + 3)

/-- The height of every sprite (R263). -/
def State.spriteHeight (s : State) : Nat := if s.tallSprites then 16 else 8

/-- The sprite's rows cover the scanline (R263). -/
def State.spriteCovers (s : State) (y i : Nat) : Bool :=
  decide (s.spriteTop i ≤ y) && decide ((y : Int) < s.spriteTop i + s.spriteHeight)

/-- The selection: up to 10 covering entries in OAM order, whatever their X (R263, D29). -/
def State.selectedSprites (s : State) (y : Nat) : List Nat :=
  ((List.range 40).filter fun i => s.spriteCovers y i).take 10

/-- Inserts a sprite before the first one whose key is not smaller. -/
def insertByKey (key : Nat → Nat) (i : Nat) (sorted : List Nat) : List Nat :=
  match sorted with
  | [] => [i]
  | j :: rest => if key i ≤ key j then i :: j :: rest else j :: insertByKey key i rest

/-- The stable sort, ascending by key (R264). -/
def sortByKey (key : Nat → Nat) (l : List Nat) : List Nat := l.foldr (insertByKey key) []

/-- The selected sprites, ascending by X, OAM order among equal X (R264). -/
def State.sortedSprites (s : State) (y : Nat) : List Nat :=
  sortByKey s.spriteX (s.selectedSprites y)

/-- The row of the sprite that a covered scanline shows, Y flip over the whole height (R266). -/
def State.spriteRow (s : State) (y i : Nat) : Nat :=
  let row := ((y : Int) - s.spriteTop i).toNat
  if (s.spriteAttr i).getLsbD 6 then s.spriteHeight - 1 - row else row

/-- The VRAM offset of the sprite's tile row: unsigned, low base, bit 0 of the tile number ignored in
16-row mode (R266, D22, D38). -/
def State.spriteRowOffset (s : State) (y i : Nat) : Nat :=
  let tile := if s.tallSprites then s.spriteTile i &&& 0xFE#8 else s.spriteTile i
  tile.toNat * 16 + s.spriteRow y i * 2

/-- The screen column lies in the sprite's eight columns (R267, R270). -/
def State.spriteCoversColumn (s : State) (x i : Nat) : Bool :=
  decide (s.spriteLeft i ≤ x) && decide ((x : Int) < s.spriteLeft i + 8)

/-- The sprite's colour index at a screen pixel, X flip honoured (R267). -/
def State.spriteColour (s : State) (x y i : Nat) : BitVec 2 :=
  let px := ((x : Int) - s.spriteLeft i).toNat
  let pos := if (s.spriteAttr i).getLsbD 5 then px else 7 - px
  bitplaneColour (s.vram (s.spriteRowOffset y i)) (s.vram (s.spriteRowOffset y i + 1)) pos

/-- The palette the sprite selects (R267). -/
def State.spritePalette (s : State) (i : Nat) : Byte :=
  if (s.spriteAttr i).getLsbD 4 then s.obp1 else s.obp0

/-- Draws one sprite over what is painted at a pixel (R267, R268): colour index 0 is transparent, and a
background-priority sprite is hidden by any painted shade that is not 0 (D21). -/
def State.spritePixel (s : State) (x y i : Nat) (painted : Shade) : Shade :=
  if ¬ s.spriteCoversColumn x i then painted
  else if s.spriteColour x y i = 0#2 then painted
  else if (s.spriteAttr i).getLsbD 7 ∧ painted ≠ 0#2 then painted
  else shade (s.spritePalette i) (s.spriteColour x y i)

/-- Draws a sorted list from its last element to its first (R265). -/
def State.spritesPixel (s : State) (x y : Nat) (sorted : List Nat) (painted : Shade) : Shade :=
  sorted.foldr (fun i under => s.spritePixel x y i under) painted

/-! The row -/

/-- One pixel of the row: the four steps of R251, R252, R259, R262 in order. -/
def State.pixel (s : State) (sorted : List Nat) (x y : Nat) : Shade :=
  if s.displayEnable then
    let painted := s.windowPixel x y (s.backgroundPixel x y)
    if s.spriteEnable then s.spritesPixel x y sorted painted else painted
  else 0#2

/-- A row from a function of the column. -/
def rowOf (pixelAt : Nat → Shade) : FbRow :=
  ⟨((List.range 160).map pixelAt).toArray, by simp⟩

/-- The 160 entries of row `y` (R250). -/
def State.renderRow (s : State) (y : Nat) : FbRow :=
  let sorted := s.sortedSprites y
  rowOf fun x => s.pixel sorted x y

/-- `render_scanline(y)` (R250): writes row `y` of the frame buffer and nothing else. -/
def renderScanline (y : Nat) (s : State) : State :=
  if h : y < 144 then { s with fb := s.fb.set y (s.renderRow y) h } else s

end Sys2Proof.Machine
end

