-- ==== Sys2Proof/Machine/Ppu.lean ====
section
/-! DEFINITION. The rendering engine's mode machine and the bus wrapper that drives it
(45_ppu_mode_machine.md). -/

namespace Sys2Proof.Machine

/-- The numeric value of a mode (R38). -/
def PpuMode.num (m : PpuMode) : Byte :=
  match m with
  | .hblank => 0#8
  | .vblank => 1#8
  | .oamScan => 2#8
  | .drawing => 3#8

/-- The cycle threshold of a mode (R231 to R235). -/
def PpuMode.threshold (m : PpuMode) : Nat :=
  match m with
  | .oamScan => 80
  | .drawing => 172
  | .hblank => 204
  | .vblank => 456

/-- The first scanline of V-Blank (R234). -/
def firstVblankLine : Byte := 144#8

/-- The last scanline of a frame (R235). -/
def lastLine : Byte := 153#8

/-- STAT with its two low bits overwritten by a mode (R236). -/
def statMirror (old : Byte) (m : PpuMode) : Byte := (old &&& 0xFC#8) ||| m.num

/-- A transition: the mode clock becomes 0, the overshoot is dropped (R232, D18), STAT mirrors (R236). -/
def enterMode (m : PpuMode) (s : State) : State :=
  { s with clk := 0, mode := m, stat := statMirror s.stat m }

/-- R232. -/
def leaveOamScan (s : State) : State := enterMode .drawing s

/-- R233: the current scanline is rendered at this instant. -/
def leaveDrawing (s : State) : State := renderScanline s.ly.toNat (enterMode .hblank s)

/-- R234: the new scanline index decides between V-Blank and the next line. -/
def leaveHblank (s : State) : State :=
  let next := { s with ly := s.ly + 1#8 }
  if next.ly = firstVblankLine then enterMode .vblank next else enterMode .oamScan next

/-- R235: past the last scanline a new frame starts. -/
def leaveVblankLine (s : State) : State :=
  let next := { s with ly := s.ly + 1#8 }
  if lastLine.toNat < next.ly.toNat then enterMode .oamScan { next with ly := 0#8 }
  else enterMode .vblank next

/-- The transition of the current mode. -/
def transition (s : State) : State :=
  match s.mode with
  | .oamScan => leaveOamScan s
  | .drawing => leaveDrawing s
  | .hblank => leaveHblank s
  | .vblank => leaveVblankLine s

/-- `advance(c)` (R231): the cycles are added, one threshold is tested, at most one transition is made. -/
def advanceClock (c : Nat) (s : State) : State :=
  let counted := { s with clk := s.clk + c }
  if counted.mode.threshold ≤ counted.clk then transition counted else counted

/-- The Boolean that `advance` returns (R231, R234, R40): this call went from HBlank to VBlank. -/
def frameComplete (c : Nat) (s : State) : Bool :=
  s.mode == .hblank && decide (PpuMode.hblank.threshold ≤ s.clk + c) && s.ly + 1#8 == firstVblankLine

/-- IF with the V-Blank request set, bit 0 (R241, D11). -/
def requestVblank (old : Byte) : Byte := old ||| 0x01#8

/-- `advance_rendering(c)` (R241). -/
def advanceRendering (c : Nat) (s : State) : State :=
  let advanced := advanceClock c s
  if frameComplete c s then { advanced with ifReg := requestVblank advanced.ifReg } else advanced

end Sys2Proof.Machine
end

