-- ==== Sys2Proof/Machine/Cycle.lean ====
section
/-! DEFINITION. The steps of `step` around the instruction (40_step_cycle.md). -/

namespace Sys2Proof.Machine

/-- Step 2 (R144): `IF & IE != 0` forces `ime`; nothing else happens, and `ime` is not cleared. -/
def syncIme (s : State) : State :=
  if s.ifReg &&& s.ie ≠ 0#8 then { s with ime := true } else s

/-- Step 5 (R148): on `total` before this step's cost is added; it overrides a DI of the same step. -/
def autoEnable (s : State) : State :=
  if s.cfg.autoImeThreshold < s.total ∧ s.ime = false then { s with ime := true } else s

/-- Step 6 (R149): the cost is added to `total`, then forwarded to the rendering engine. -/
def account (c : Nat) (s : State) : State := advanceRendering c { s with total := s.total + c }

/-- Steps 5 and 6 after an instruction has run. -/
def finishCycle (s : State) : State := account s.cost.toNat (autoEnable s)

/-- A watchdog step (R142, R143). -/
def watchdogStep (s : State) : State :=
  if s.cfg.watchdogAccounts then account watchdogCost.toNat (watchdogEntry s) else watchdogEntry s

/-- Continues a step from its next state; there is nothing to continue after a fault or a refusal. -/
def thenFinish (o : Host.Outcome State Fault Refusal) : Host.Outcome State Fault Refusal :=
  match o with
  | .next t => .next (finishCycle t)
  | .fault r => .fault r
  | .refused r => .refused r

end Sys2Proof.Machine
end

