-- ==== Sys2Proof/Machine/AluBit.lean ====
section
/-! DEFINITION. The arithmetic, logic and bit instructions (43_alu_bit.md). -/

namespace Sys2Proof.Machine

/-- `rr <- rr +16 1`, no flag (R202). -/
def incrementPair (p : Pair) (s : State) : State :=
  (s.setPair p (s.getPair p + 1#16)).advance 1#16 8#8

/-- `x[sss] <- x[sss] & ~(1 << bbb)`, no flag (R203). -/
def resetBit (bit : BitVec 3) (r : Reg) (s : State) : State :=
  (s.setReg r (clearBit bit (s.getReg r))).advance 2#16 8#8

/-- `CP n` (R200). -/
def execCpN (n : Byte) (s : State) : Host.Outcome State Fault Refusal :=
  .next ({ s with f := compareFlags s.a n }.advance 2#16 8#8)

/-- `XOR A` (R201). -/
def execXorA (s : State) : Host.Outcome State Fault Refusal :=
  .next ({ s with a := s.a ^^^ s.a, f := xorSelfFlags }.advance 1#16 4#8)

/-- `INC BC` (R202). -/
def execIncBc (s : State) : Host.Outcome State Fault Refusal :=
  .next (incrementPair .bc s)

/-- `INC DE` (R202). -/
def execIncDe (s : State) : Host.Outcome State Fault Refusal :=
  .next (incrementPair .de s)

/-- `INC HL` (R202). -/
def execIncHl (s : State) : Host.Outcome State Fault Refusal :=
  .next (incrementPair .hl s)

/-- `INC SP` (R202). -/
def execIncSp (s : State) : Host.Outcome State Fault Refusal :=
  .next (incrementPair .sp s)

/-- `RES 0,B` (R203). -/
def execRes0B (s : State) : Host.Outcome State Fault Refusal :=
  .next (resetBit 0#3 .b s)

/-- `RES 0,C` (R203). -/
def execRes0C (s : State) : Host.Outcome State Fault Refusal :=
  .next (resetBit 0#3 .c s)

/-- `RES 0,D` (R203). -/
def execRes0D (s : State) : Host.Outcome State Fault Refusal :=
  .next (resetBit 0#3 .d s)

/-- `RES 0,E` (R203). -/
def execRes0E (s : State) : Host.Outcome State Fault Refusal :=
  .next (resetBit 0#3 .e s)

/-- `RES 0,H` (R203). -/
def execRes0H (s : State) : Host.Outcome State Fault Refusal :=
  .next (resetBit 0#3 .h s)

/-- `RES 0,L` (R203). -/
def execRes0L (s : State) : Host.Outcome State Fault Refusal :=
  .next (resetBit 0#3 .l s)

/-- `RES 0,A` (R203). -/
def execRes0A (s : State) : Host.Outcome State Fault Refusal :=
  .next (resetBit 0#3 .a s)

/-- `RES 1,B` (R203). -/
def execRes1B (s : State) : Host.Outcome State Fault Refusal :=
  .next (resetBit 1#3 .b s)

/-- `RES 1,C` (R203). -/
def execRes1C (s : State) : Host.Outcome State Fault Refusal :=
  .next (resetBit 1#3 .c s)

/-- `RES 1,D` (R203). -/
def execRes1D (s : State) : Host.Outcome State Fault Refusal :=
  .next (resetBit 1#3 .d s)

/-- `RES 1,E` (R203). -/
def execRes1E (s : State) : Host.Outcome State Fault Refusal :=
  .next (resetBit 1#3 .e s)

/-- `RES 1,H` (R203). -/
def execRes1H (s : State) : Host.Outcome State Fault Refusal :=
  .next (resetBit 1#3 .h s)

/-- `RES 1,L` (R203). -/
def execRes1L (s : State) : Host.Outcome State Fault Refusal :=
  .next (resetBit 1#3 .l s)

/-- `RES 1,A` (R203). -/
def execRes1A (s : State) : Host.Outcome State Fault Refusal :=
  .next (resetBit 1#3 .a s)

/-- `RES 2,B` (R203). -/
def execRes2B (s : State) : Host.Outcome State Fault Refusal :=
  .next (resetBit 2#3 .b s)

/-- `RES 2,C` (R203). -/
def execRes2C (s : State) : Host.Outcome State Fault Refusal :=
  .next (resetBit 2#3 .c s)

/-- `RES 2,D` (R203). -/
def execRes2D (s : State) : Host.Outcome State Fault Refusal :=
  .next (resetBit 2#3 .d s)

/-- `RES 2,E` (R203). -/
def execRes2E (s : State) : Host.Outcome State Fault Refusal :=
  .next (resetBit 2#3 .e s)

/-- `RES 2,H` (R203). -/
def execRes2H (s : State) : Host.Outcome State Fault Refusal :=
  .next (resetBit 2#3 .h s)

/-- `RES 2,L` (R203). -/
def execRes2L (s : State) : Host.Outcome State Fault Refusal :=
  .next (resetBit 2#3 .l s)

/-- `RES 2,A` (R203). -/
def execRes2A (s : State) : Host.Outcome State Fault Refusal :=
  .next (resetBit 2#3 .a s)

/-- `RES 3,B` (R203). -/
def execRes3B (s : State) : Host.Outcome State Fault Refusal :=
  .next (resetBit 3#3 .b s)

/-- `RES 3,C` (R203). -/
def execRes3C (s : State) : Host.Outcome State Fault Refusal :=
  .next (resetBit 3#3 .c s)

/-- `RES 3,D` (R203). -/
def execRes3D (s : State) : Host.Outcome State Fault Refusal :=
  .next (resetBit 3#3 .d s)

/-- `RES 3,E` (R203). -/
def execRes3E (s : State) : Host.Outcome State Fault Refusal :=
  .next (resetBit 3#3 .e s)

/-- `RES 3,H` (R203). -/
def execRes3H (s : State) : Host.Outcome State Fault Refusal :=
  .next (resetBit 3#3 .h s)

/-- `RES 3,L` (R203). -/
def execRes3L (s : State) : Host.Outcome State Fault Refusal :=
  .next (resetBit 3#3 .l s)

/-- `RES 3,A` (R203). -/
def execRes3A (s : State) : Host.Outcome State Fault Refusal :=
  .next (resetBit 3#3 .a s)

/-- `RES 4,B` (R203). -/
def execRes4B (s : State) : Host.Outcome State Fault Refusal :=
  .next (resetBit 4#3 .b s)

/-- `RES 4,C` (R203). -/
def execRes4C (s : State) : Host.Outcome State Fault Refusal :=
  .next (resetBit 4#3 .c s)

/-- `RES 4,D` (R203). -/
def execRes4D (s : State) : Host.Outcome State Fault Refusal :=
  .next (resetBit 4#3 .d s)

/-- `RES 4,E` (R203). -/
def execRes4E (s : State) : Host.Outcome State Fault Refusal :=
  .next (resetBit 4#3 .e s)

/-- `RES 4,H` (R203). -/
def execRes4H (s : State) : Host.Outcome State Fault Refusal :=
  .next (resetBit 4#3 .h s)

/-- `RES 4,L` (R203). -/
def execRes4L (s : State) : Host.Outcome State Fault Refusal :=
  .next (resetBit 4#3 .l s)

/-- `RES 4,A` (R203). -/
def execRes4A (s : State) : Host.Outcome State Fault Refusal :=
  .next (resetBit 4#3 .a s)

/-- `RES 5,B` (R203). -/
def execRes5B (s : State) : Host.Outcome State Fault Refusal :=
  .next (resetBit 5#3 .b s)

/-- `RES 5,C` (R203). -/
def execRes5C (s : State) : Host.Outcome State Fault Refusal :=
  .next (resetBit 5#3 .c s)

/-- `RES 5,D` (R203). -/
def execRes5D (s : State) : Host.Outcome State Fault Refusal :=
  .next (resetBit 5#3 .d s)

/-- `RES 5,E` (R203). -/
def execRes5E (s : State) : Host.Outcome State Fault Refusal :=
  .next (resetBit 5#3 .e s)

/-- `RES 5,H` (R203). -/
def execRes5H (s : State) : Host.Outcome State Fault Refusal :=
  .next (resetBit 5#3 .h s)

/-- `RES 5,L` (R203). -/
def execRes5L (s : State) : Host.Outcome State Fault Refusal :=
  .next (resetBit 5#3 .l s)

/-- `RES 5,A` (R203). -/
def execRes5A (s : State) : Host.Outcome State Fault Refusal :=
  .next (resetBit 5#3 .a s)

/-- `RES 6,B` (R203). -/
def execRes6B (s : State) : Host.Outcome State Fault Refusal :=
  .next (resetBit 6#3 .b s)

/-- `RES 6,C` (R203). -/
def execRes6C (s : State) : Host.Outcome State Fault Refusal :=
  .next (resetBit 6#3 .c s)

/-- `RES 6,D` (R203). -/
def execRes6D (s : State) : Host.Outcome State Fault Refusal :=
  .next (resetBit 6#3 .d s)

/-- `RES 6,E` (R203). -/
def execRes6E (s : State) : Host.Outcome State Fault Refusal :=
  .next (resetBit 6#3 .e s)

/-- `RES 6,H` (R203). -/
def execRes6H (s : State) : Host.Outcome State Fault Refusal :=
  .next (resetBit 6#3 .h s)

/-- `RES 6,L` (R203). -/
def execRes6L (s : State) : Host.Outcome State Fault Refusal :=
  .next (resetBit 6#3 .l s)

/-- `RES 6,A` (R203). -/
def execRes6A (s : State) : Host.Outcome State Fault Refusal :=
  .next (resetBit 6#3 .a s)

/-- `RES 7,B` (R203). -/
def execRes7B (s : State) : Host.Outcome State Fault Refusal :=
  .next (resetBit 7#3 .b s)

/-- `RES 7,C` (R203). -/
def execRes7C (s : State) : Host.Outcome State Fault Refusal :=
  .next (resetBit 7#3 .c s)

/-- `RES 7,D` (R203). -/
def execRes7D (s : State) : Host.Outcome State Fault Refusal :=
  .next (resetBit 7#3 .d s)

/-- `RES 7,E` (R203). -/
def execRes7E (s : State) : Host.Outcome State Fault Refusal :=
  .next (resetBit 7#3 .e s)

/-- `RES 7,H` (R203). -/
def execRes7H (s : State) : Host.Outcome State Fault Refusal :=
  .next (resetBit 7#3 .h s)

/-- `RES 7,L` (R203). -/
def execRes7L (s : State) : Host.Outcome State Fault Refusal :=
  .next (resetBit 7#3 .l s)

/-- `RES 7,A` (R203). -/
def execRes7A (s : State) : Host.Outcome State Fault Refusal :=
  .next (resetBit 7#3 .a s)

end Sys2Proof.Machine
end

