-- ==== Sys2Proof/Machine/Control.lean ====
section
/-! DEFINITION. The control transfer instructions (41_control_transfer.md). On entry `pc` is the address
of the opcode byte and the immediate bytes have been fetched (R11, R115). -/

namespace Sys2Proof.Machine

/-- A relative jump taken on a condition (R163, R164): 12 cycles taken, 8 not taken (R169). -/
def jumpRelativeIf (taken : Bool) (e : Byte) (s : State) : State :=
  if taken then s.jump (relativeTarget s.pc e) 12#8 else s.advance 2#16 8#8

/-- `pc <- Pop16()` (R166). -/
def returnFromStack (cost : Byte) (s : State) : State :=
  (pop16 s).2.jump (pop16 s).1 cost

/-- `JP nn` (R161). -/
def execJpNn (nn : Word) (s : State) : Host.Outcome State Fault Refusal :=
  .next (s.jump nn 16#8)

/-- `JR n` (R162). -/
def execJrN (e : Byte) (s : State) : Host.Outcome State Fault Refusal :=
  .next (s.jump (relativeTarget s.pc e) 12#8)

/-- `JR Z,n` (R163). -/
def execJrZN (e : Byte) (s : State) : Host.Outcome State Fault Refusal :=
  .next (jumpRelativeIf s.condZ e s)

/-- `JR NZ,n` (R164). -/
def execJrNzN (e : Byte) (s : State) : Host.Outcome State Fault Refusal :=
  .next (jumpRelativeIf s.condNZ e s)

/-- `CALL nn` (R165): pushes the address of the next instruction. -/
def execCallNn (nn : Word) (s : State) : Host.Outcome State Fault Refusal :=
  .next ((push16 (s.pc + 3#16) s).jump nn 24#8)

/-- `RET` (R166). -/
def execRet (s : State) : Host.Outcome State Fault Refusal :=
  .next (returnFromStack 16#8 s)

/-- `RET NZ` (R167): not taken, the stack is not read. -/
def execRetNz (s : State) : Host.Outcome State Fault Refusal :=
  .next (if s.condNZ then returnFromStack 20#8 s else s.advance 1#16 8#8)

/-- `RST 38h` (R168). -/
def execRst38 (s : State) : Host.Outcome State Fault Refusal :=
  .next ((push16 (s.pc + 1#16) s).jump 0x0038#16 16#8)

end Sys2Proof.Machine
end

