-- ==== Sys2Proof/Machine/Loads.lean ====
section
/-! DEFINITION. The load and store instructions (42_loads.md): one shared operation per form, one
definition per opcode row. No load or store writes a flag (R27). -/

namespace Sys2Proof.Machine

/-- `x[ddd] <- x[sss]` (R180). -/
def loadRegReg (dst src : Reg) (s : State) : State :=
  (s.setReg dst (s.getReg src)).advance 1#16 4#8

/-- `x[ddd] <- n` (R181). -/
def loadRegImm (dst : Reg) (n : Byte) (s : State) : State :=
  (s.setReg dst n).advance 2#16 8#8

/-- `rr <- nn` (R182). -/
def loadPairImm (p : Pair) (nn : Word) (s : State) : State :=
  (s.setPair p nn).advance 3#16 12#8

/-- `MemWrite(addr, 1, A)` (R183, R185). -/
def storeA (addr len : Word) (cost : Byte) (s : State) : State :=
  (memWrite addr s.a s).advance len cost

/-- `A <- MemRead(addr, 1)` (R184, R186). -/
def loadA (addr len : Word) (cost : Byte) (s : State) : State :=
  { (memRead addr s).2 with a := (memRead addr s).1 }.advance len cost

/-- `LD B,B` (R180). -/
def execLdBB (s : State) : Host.Outcome State Fault Refusal :=
  .next (loadRegReg .b .b s)

/-- `LD B,C` (R180). -/
def execLdBC (s : State) : Host.Outcome State Fault Refusal :=
  .next (loadRegReg .b .c s)

/-- `LD B,D` (R180). -/
def execLdBD (s : State) : Host.Outcome State Fault Refusal :=
  .next (loadRegReg .b .d s)

/-- `LD B,E` (R180). -/
def execLdBE (s : State) : Host.Outcome State Fault Refusal :=
  .next (loadRegReg .b .e s)

/-- `LD B,H` (R180). -/
def execLdBH (s : State) : Host.Outcome State Fault Refusal :=
  .next (loadRegReg .b .h s)

/-- `LD B,L` (R180). -/
def execLdBL (s : State) : Host.Outcome State Fault Refusal :=
  .next (loadRegReg .b .l s)

/-- `LD B,A` (R180). -/
def execLdBA (s : State) : Host.Outcome State Fault Refusal :=
  .next (loadRegReg .b .a s)

/-- `LD C,B` (R180). -/
def execLdCB (s : State) : Host.Outcome State Fault Refusal :=
  .next (loadRegReg .c .b s)

/-- `LD C,C` (R180). -/
def execLdCC (s : State) : Host.Outcome State Fault Refusal :=
  .next (loadRegReg .c .c s)

/-- `LD C,D` (R180). -/
def execLdCD (s : State) : Host.Outcome State Fault Refusal :=
  .next (loadRegReg .c .d s)

/-- `LD C,E` (R180). -/
def execLdCE (s : State) : Host.Outcome State Fault Refusal :=
  .next (loadRegReg .c .e s)

/-- `LD C,H` (R180). -/
def execLdCH (s : State) : Host.Outcome State Fault Refusal :=
  .next (loadRegReg .c .h s)

/-- `LD C,L` (R180). -/
def execLdCL (s : State) : Host.Outcome State Fault Refusal :=
  .next (loadRegReg .c .l s)

/-- `LD C,A` (R180). -/
def execLdCA (s : State) : Host.Outcome State Fault Refusal :=
  .next (loadRegReg .c .a s)

/-- `LD D,B` (R180). -/
def execLdDB (s : State) : Host.Outcome State Fault Refusal :=
  .next (loadRegReg .d .b s)

/-- `LD D,C` (R180). -/
def execLdDC (s : State) : Host.Outcome State Fault Refusal :=
  .next (loadRegReg .d .c s)

/-- `LD D,D` (R180). -/
def execLdDD (s : State) : Host.Outcome State Fault Refusal :=
  .next (loadRegReg .d .d s)

/-- `LD D,E` (R180). -/
def execLdDE (s : State) : Host.Outcome State Fault Refusal :=
  .next (loadRegReg .d .e s)

/-- `LD D,H` (R180). -/
def execLdDH (s : State) : Host.Outcome State Fault Refusal :=
  .next (loadRegReg .d .h s)

/-- `LD D,L` (R180). -/
def execLdDL (s : State) : Host.Outcome State Fault Refusal :=
  .next (loadRegReg .d .l s)

/-- `LD D,A` (R180). -/
def execLdDA (s : State) : Host.Outcome State Fault Refusal :=
  .next (loadRegReg .d .a s)

/-- `LD E,B` (R180). -/
def execLdEB (s : State) : Host.Outcome State Fault Refusal :=
  .next (loadRegReg .e .b s)

/-- `LD E,C` (R180). -/
def execLdEC (s : State) : Host.Outcome State Fault Refusal :=
  .next (loadRegReg .e .c s)

/-- `LD E,D` (R180). -/
def execLdED (s : State) : Host.Outcome State Fault Refusal :=
  .next (loadRegReg .e .d s)

/-- `LD E,E` (R180). -/
def execLdEE (s : State) : Host.Outcome State Fault Refusal :=
  .next (loadRegReg .e .e s)

/-- `LD E,H` (R180). -/
def execLdEH (s : State) : Host.Outcome State Fault Refusal :=
  .next (loadRegReg .e .h s)

/-- `LD E,L` (R180). -/
def execLdEL (s : State) : Host.Outcome State Fault Refusal :=
  .next (loadRegReg .e .l s)

/-- `LD E,A` (R180). -/
def execLdEA (s : State) : Host.Outcome State Fault Refusal :=
  .next (loadRegReg .e .a s)

/-- `LD H,B` (R180). -/
def execLdHB (s : State) : Host.Outcome State Fault Refusal :=
  .next (loadRegReg .h .b s)

/-- `LD H,C` (R180). -/
def execLdHC (s : State) : Host.Outcome State Fault Refusal :=
  .next (loadRegReg .h .c s)

/-- `LD H,D` (R180). -/
def execLdHD (s : State) : Host.Outcome State Fault Refusal :=
  .next (loadRegReg .h .d s)

/-- `LD H,E` (R180). -/
def execLdHE (s : State) : Host.Outcome State Fault Refusal :=
  .next (loadRegReg .h .e s)

/-- `LD H,H` (R180). -/
def execLdHH (s : State) : Host.Outcome State Fault Refusal :=
  .next (loadRegReg .h .h s)

/-- `LD H,L` (R180). -/
def execLdHL (s : State) : Host.Outcome State Fault Refusal :=
  .next (loadRegReg .h .l s)

/-- `LD H,A` (R180). -/
def execLdHA (s : State) : Host.Outcome State Fault Refusal :=
  .next (loadRegReg .h .a s)

/-- `LD L,B` (R180). -/
def execLdLB (s : State) : Host.Outcome State Fault Refusal :=
  .next (loadRegReg .l .b s)

/-- `LD L,C` (R180). -/
def execLdLC (s : State) : Host.Outcome State Fault Refusal :=
  .next (loadRegReg .l .c s)

/-- `LD L,D` (R180). -/
def execLdLD (s : State) : Host.Outcome State Fault Refusal :=
  .next (loadRegReg .l .d s)

/-- `LD L,E` (R180). -/
def execLdLE (s : State) : Host.Outcome State Fault Refusal :=
  .next (loadRegReg .l .e s)

/-- `LD L,H` (R180). -/
def execLdLH (s : State) : Host.Outcome State Fault Refusal :=
  .next (loadRegReg .l .h s)

/-- `LD L,L` (R180). -/
def execLdLL (s : State) : Host.Outcome State Fault Refusal :=
  .next (loadRegReg .l .l s)

/-- `LD L,A` (R180). -/
def execLdLA (s : State) : Host.Outcome State Fault Refusal :=
  .next (loadRegReg .l .a s)

/-- `LD A,B` (R180). -/
def execLdAB (s : State) : Host.Outcome State Fault Refusal :=
  .next (loadRegReg .a .b s)

/-- `LD A,C` (R180). -/
def execLdAC (s : State) : Host.Outcome State Fault Refusal :=
  .next (loadRegReg .a .c s)

/-- `LD A,D` (R180). -/
def execLdAD (s : State) : Host.Outcome State Fault Refusal :=
  .next (loadRegReg .a .d s)

/-- `LD A,E` (R180). -/
def execLdAE (s : State) : Host.Outcome State Fault Refusal :=
  .next (loadRegReg .a .e s)

/-- `LD A,H` (R180). -/
def execLdAH (s : State) : Host.Outcome State Fault Refusal :=
  .next (loadRegReg .a .h s)

/-- `LD A,L` (R180). -/
def execLdAL (s : State) : Host.Outcome State Fault Refusal :=
  .next (loadRegReg .a .l s)

/-- `LD A,A` (R180). -/
def execLdAA (s : State) : Host.Outcome State Fault Refusal :=
  .next (loadRegReg .a .a s)

/-- `LD B,n` (R181). -/
def execLdBN (n : Byte) (s : State) : Host.Outcome State Fault Refusal :=
  .next (loadRegImm .b n s)

/-- `LD C,n` (R181). -/
def execLdCN (n : Byte) (s : State) : Host.Outcome State Fault Refusal :=
  .next (loadRegImm .c n s)

/-- `LD D,n` (R181). -/
def execLdDN (n : Byte) (s : State) : Host.Outcome State Fault Refusal :=
  .next (loadRegImm .d n s)

/-- `LD E,n` (R181). -/
def execLdEN (n : Byte) (s : State) : Host.Outcome State Fault Refusal :=
  .next (loadRegImm .e n s)

/-- `LD H,n` (R181). -/
def execLdHN (n : Byte) (s : State) : Host.Outcome State Fault Refusal :=
  .next (loadRegImm .h n s)

/-- `LD L,n` (R181). -/
def execLdLN (n : Byte) (s : State) : Host.Outcome State Fault Refusal :=
  .next (loadRegImm .l n s)

/-- `LD A,n` (R181). -/
def execLdAN (n : Byte) (s : State) : Host.Outcome State Fault Refusal :=
  .next (loadRegImm .a n s)

/-- `LD BC,nn` (R182). -/
def execLdBcNn (nn : Word) (s : State) : Host.Outcome State Fault Refusal :=
  .next (loadPairImm .bc nn s)

/-- `LD DE,nn` (R182). -/
def execLdDeNn (nn : Word) (s : State) : Host.Outcome State Fault Refusal :=
  .next (loadPairImm .de nn s)

/-- `LD HL,nn` (R182). -/
def execLdHlNn (nn : Word) (s : State) : Host.Outcome State Fault Refusal :=
  .next (loadPairImm .hl nn s)

/-- `LD SP,nn` (R182). -/
def execLdSpNn (nn : Word) (s : State) : Host.Outcome State Fault Refusal :=
  .next (loadPairImm .sp nn s)

/-- `LD (nn),A` (R183). -/
def execLdMemNnA (nn : Word) (s : State) : Host.Outcome State Fault Refusal :=
  .next (storeA nn 3#16 16#8 s)

/-- `LD A,(nn)` (R184). -/
def execLdAMemNn (nn : Word) (s : State) : Host.Outcome State Fault Refusal :=
  .next (loadA nn 3#16 16#8 s)

/-- `LDH (n),A` (R185). -/
def execLdhMemNA (n : Byte) (s : State) : Host.Outcome State Fault Refusal :=
  .next (storeA (highPage n) 2#16 12#8 s)

/-- `LDH A,(n)` (R186). -/
def execLdhAMemN (n : Byte) (s : State) : Host.Outcome State Fault Refusal :=
  .next (loadA (highPage n) 2#16 12#8 s)

end Sys2Proof.Machine
end

