-- ==== Sys2Proof/Machine/System.lean ====
section
/-! DEFINITION. NOP, DI, the two unknown paths and the escape prefix (44_system_misc.md, R117). -/

namespace Sys2Proof.Machine

/-- The unknown escaped opcode's effect: an event, a two-byte skip, an open cost (R223). -/
def skipEscaped (op2 : Byte) (s : State) : State :=
  (s.emit (.unknownEscapedOpcode s.pc op2)).advance 2#16 s.cfg.cbUnknownCost

/-- `NOP` (R220). -/
def execNop (s : State) : Host.Outcome State Fault Refusal :=
  .next (s.advance 1#16 4#8)

/-- `DI` (R221). -/
def execDi (s : State) : Host.Outcome State Fault Refusal :=
  .next ({ s with ime := false }.advance 1#16 4#8)

/-- `(unknown opcode)` (R222): an event, a one-byte skip, 4 cycles (`UNKNOWN_POLICY = skip`). -/
def execUnknownOpcode (op : Byte) (s : State) : Host.Outcome State Fault Refusal :=
  .next ((s.emit (.unknownOpcode s.pc op)).advance 1#16 4#8)

/-- `(unknown escaped opcode)` (R223). -/
def execUnknownEscapedOpcode (op2 : Byte) (s : State) : Host.Outcome State Fault Refusal :=
  .next (skipEscaped op2 s)

/-- The effect of the row that a second byte selects (R121, step 1). -/
def runEscaped (op2 : Byte) (s : State) : State :=
  match resOperands op2 with
  | some (bit, r) => resetBit bit r s
  | none => skipEscaped op2 s

/-- The escape prefix (R117): the byte at `pc + 1` is read and selects the row that runs, all in one
step. A fetched instruction never decodes to this term, since its second byte is fetched with it. -/
def execEscapePrefix (s : State) : Host.Outcome State Fault Refusal :=
  .next (runEscaped (memRead (s.pc + 1#16) s).1 (memRead (s.pc + 1#16) s).2)

end Sys2Proof.Machine
end

