-- ==== Sys2Proof/Machine/Fetch.lean ====
section
/-! DEFINITION. Steps 3 and 4 of `step` up to the instruction's own effect: the opcode and operand bytes
are ordinary bus reads in ascending address order (R145, R115, R87), then R121 decodes them. -/

namespace Sys2Proof.Machine

/-- The bus address of byte `k` of the instruction at `pc` (R25). -/
def byteAddr (pc : Word) (k : Nat) : Word := pc + BitVec.ofNat 16 k

/-- The three bytes the bus holds from `pc` on. -/
def bytesAtPc (s : State) : List Byte :=
  [busRead s.pc s, busRead (byteAddr s.pc 1) s, busRead (byteAddr s.pc 2) s]

/-- The reads of the first `n` bytes from an address on, each reported if it misses (R80). -/
def noteReads (pc : Word) (n : Nat) (s : State) : State :=
  match n with
  | 0 => s
  | k + 1 => noteRead (byteAddr pc k) (noteReads pc k s)

/-- How many bytes the fetch reads: the opcode byte and its operand bytes (R79, R110). -/
def fetchLength (s : State) : Nat := 1 + operandBytes (busRead s.pc s)

/-- The state after the instruction's bytes have been fetched. -/
def fetched (s : State) : State := noteReads s.pc (fetchLength s) s

/-- The instruction at `pc` (R145, R146). -/
def fetchedInstr (s : State) : Instr :=
  decodeBytes (busRead s.pc s) (busRead (byteAddr s.pc 1) s) (busRead (byteAddr s.pc 2) s)

/-- Puts one byte behind a bus address from outside the machine, as a loader would (the host's probe,
assumption 8): a storage cell, or the register that stands there; nothing behind an unmapped address. -/
def pokeByte (addr : Word) (v : Byte) (s : State) : State :=
  match Region.of addr with
  | .rom =>
    { s with
      mem := s.mem.set addr.toNat v
      cfg := { s.cfg with romLen := max s.cfg.romLen (addr.toNat + 1) } }
  | .vram | .wram | .oam | .io | .hram => { s with mem := s.mem.set addr.toNat v }
  | .overlay .ly => { s with ly := v }
  | .overlay .stat => { s with stat := v }
  | .overlay reg => s.setOverlay reg v
  | .interruptEnable => { s with ie := v }
  | .unmapped => s

/-- Puts a byte list behind consecutive bus addresses. -/
def pokeBytes (addr : Word) (bytes : List Byte) (s : State) : State :=
  match bytes with
  | [] => s
  | v :: rest => pokeBytes (addr + 1#16) rest (pokeByte addr v s)

end Sys2Proof.Machine
end

