-- ==== Sys2Proof/Machine/Step.lean ====
section
/-! DEFINITION. `step`, the one transition of the machine (R140), and the host's placing of an instruction. -/

namespace Sys2Proof.Machine

/-- One instruction cycle (R140). -/
def step (s : State) : Host.Outcome State Fault Refusal :=
  if watchdogCondition s then .next (watchdogStep s)
  else thenFinish (exec (fetchedInstr (syncIme s)) (fetched (syncIme s)))

/-- `s` with the instruction of a table word stored where `step` fetches its next instruction
(assumption 8). -/
def State.withFetchWord (s : State) (nbits w : Nat) : State :=
  pokeBytes s.pc (tableBytes nbits w) s

end Sys2Proof.Machine
end

