-- ==== Sys2Proof/Machine/Construct.lean ====
section
/-! DEFINITION. Construction of the machine from a ROM image (70_reset_and_hazards.md R310, R311). -/

namespace Sys2Proof.Machine

/-- Why construction fails: error class (c) of R281. -/
inductive ConstructError where
  | romTooSmall
deriving DecidableEq, Repr

/-- `ROM_MIN_LEN` (R6, R311). -/
def romMinLen : Nat := 0x150

/-- The cells of an image placed from an address on. -/
def loadImage (addr : Nat) (image : List Byte) : Memory :=
  match image with
  | [] => []
  | v :: rest => Memory.entry addr v ++ loadImage (addr + 1) rest

/-- `AddressBus.new(rom_bytes)` and the instruction engine (R310): fails for an image shorter than 0x150
bytes (R282, R311); only the low 32 KiB are visible (R44, R72). The thresholds and open values of `cfg`
are the session's; its `romLen` is the image's length. -/
def construct (cfg : Config) (image : List Byte) : Except ConstructError State :=
  if image.length < romMinLen then .error .romTooSmall
  else .ok
    { State.reset with
      mem := loadImage 0 (image.take vramBase)
      cfg := { cfg with romLen := image.length } }

end Sys2Proof.Machine
end

