-- ==== Sys2Proof/Safety.lean ====
section
/-! DEFINITION. The invariants of the machine, and the frames that claims are stated with. -/

namespace Sys2Proof.Machine

/-- The low nibble of F reads as zero (R23). -/
abbrev State.FlagInv (s : State) : Prop := s.f &&& 0x0F#8 = 0#8

/-- The invariants of the mode machine (R243): STAT's low bits mirror the mode, the scanline index never
exceeds 153, V-Blank is scanlines 144 to 153, and the mode clock is below the mode's threshold. -/
abbrev State.PpuInv (s : State) : Prop :=
  s.stat &&& 0x03#8 = s.mode.num ∧ s.ly.toNat ≤ 153 ∧
    (s.mode = .vblank ↔ 144 ≤ s.ly.toNat) ∧ s.clk < s.mode.threshold

/-- What holds at reset and every step keeps. -/
abbrev State.Inv (s : State) : Prop := s.FlagInv ∧ s.PpuInv ∧ s.mem.wf

/-- `t` has the general registers, F among them, and the stack pointer of `s`. -/
abbrev SameRegs (s t : State) : Prop :=
  t.a = s.a ∧ t.f = s.f ∧ t.b = s.b ∧ t.c = s.c ∧ t.d = s.d ∧ t.e = s.e ∧ t.h = s.h ∧ t.l = s.l ∧
    t.sp = s.sp

/-- `t` has the registers of `s` that a bus write can reach: IF, IE and the display registers. -/
abbrev SameBusRegs (s t : State) : Prop :=
  t.ifReg = s.ifReg ∧ t.ie = s.ie ∧ t.lcdc = s.lcdc ∧ t.stat = s.stat ∧ t.scy = s.scy ∧
    t.scx = s.scx ∧ t.bgp = s.bgp ∧ t.obp0 = s.obp0 ∧ t.obp1 = s.obp1 ∧ t.wy = s.wy ∧ t.wx = s.wx

/-- `t` has what no instruction's own effect reaches, except DI for `ime`: the cycle counter, the mode
machine's mode, clock and scanline, the frame buffer, and the parameters. -/
abbrev SameEngine (s t : State) : Prop :=
  t.ime = s.ime ∧ t.total = s.total ∧ t.mode = s.mode ∧ t.clk = s.clk ∧ t.ly = s.ly ∧ t.fb = s.fb ∧
    t.cfg = s.cfg

/-- Every bus address reads in `t` as it does in `s`. -/
def SameReads (s t : State) : Prop := ∀ addr, busRead addr t = busRead addr s

/-- The cycle table (R169, R188, R205, R225): what an instruction costs on a state. -/
def cyclesOf (i : Instr) (s : State) : Byte :=
  match i with
  | .nop | .ldBB | .ldBC | .ldBD | .ldBE | .ldBH | .ldBL | .ldBA | .ldCB | .ldCC | .ldCD
  | .ldCE | .ldCH | .ldCL | .ldCA | .ldDB | .ldDC | .ldDD | .ldDE | .ldDH | .ldDL | .ldDA
  | .ldEB | .ldEC | .ldED | .ldEE | .ldEH | .ldEL | .ldEA | .ldHB | .ldHC | .ldHD | .ldHE
  | .ldHH | .ldHL | .ldHA | .ldLB | .ldLC | .ldLD | .ldLE | .ldLH | .ldLL | .ldLA | .ldAB
  | .ldAC | .ldAD | .ldAE | .ldAH | .ldAL | .ldAA | .xorA | .di | .unknownOpcode _ => 4#8
  | .incBc | .incDe | .incHl | .incSp | .ldBN _ | .ldCN _ | .ldDN _ | .ldEN _ | .ldHN _
  | .ldLN _ | .ldAN _ | .cpN _ | .res0B | .res0C | .res0D | .res0E | .res0H | .res0L | .res0A
  | .res1B | .res1C | .res1D | .res1E | .res1H | .res1L | .res1A | .res2B | .res2C | .res2D
  | .res2E | .res2H | .res2L | .res2A | .res3B | .res3C | .res3D | .res3E | .res3H | .res3L
  | .res3A | .res4B | .res4C | .res4D | .res4E | .res4H | .res4L | .res4A | .res5B | .res5C
  | .res5D | .res5E | .res5H | .res5L | .res5A | .res6B | .res6C | .res6D | .res6E | .res6H
  | .res6L | .res6A | .res7B | .res7C | .res7D | .res7E | .res7H | .res7L | .res7A => 8#8
  | .ldBcNn _ | .ldDeNn _ | .ldHlNn _ | .ldSpNn _ | .jrN _ | .ldhMemNA _ | .ldhAMemN _ => 12#8
  | .jpNn _ | .ret | .ldMemNnA _ | .ldAMemNn _ | .rst38 => 16#8
  | .callNn _ => 24#8
  | .jrZN _ => if s.condZ then 12#8 else 8#8
  | .jrNzN _ => if s.condNZ then 12#8 else 8#8
  | .retNz => if s.condNZ then 20#8 else 8#8
  | .unknownEscapedOpcode _ => s.cfg.cbUnknownCost
  | .escapePrefix => if isResByte (busRead (s.pc + 1#16) s) then 8#8 else s.cfg.cbUnknownCost

/-- The instructions that set `pc` themselves (R25). -/
def setsPc (i : Instr) : Bool :=
  match i with
  | .jpNn _ | .jrN _ | .jrZN _ | .jrNzN _ | .callNn _ | .ret | .retNz | .rst38 => true
  | _ => false

/-- The 16-bit extension of an offset byte as R9 writes it. -/
def offset16 (e : Byte) : Word :=
  if e.toNat < 128 then BitVec.ofNat 16 e.toNat else BitVec.ofNat 16 (e.toNat + 0xFF00)

/-- `n` calls of `advance(1)`, with the number of calls that returned frame-complete (R237). -/
def oneCycleRun (n : Nat) (s : State) : State × Nat :=
  match n with
  | 0 => (s, 0)
  | k + 1 =>
    let r := oneCycleRun k s
    (advanceClock 1 r.1, if frameComplete 1 r.1 then r.2 + 1 else r.2)

/-- Bit `pos` of a byte as a number. -/
def bitAt (v : Byte) (pos : Nat) : Nat := v.toNat / 2 ^ pos % 2

end Sys2Proof.Machine
end

