-- ==== Sys2Proof/Certificates/Slice0/Obligations.lean ====
section
/-! DEFINITION. The statements for the provers. Each docstring names the rules of spec/ it formalises,
or says that it rests on the model's own choice. -/

open Sys2Proof Sys2Proof.Machine

/-! Reset and construction -/

/-- R60. The values of the pairs BC, DE and HL are derived there from R21, whose byte order is the spec's
decision D4 (assumption 12). -/
def Obligations.ResetLeavesCpuRegisters : Prop :=
  let s := State.reset
  s.pc = 0x0100#16 ∧ s.sp = 0xFFFE#16 ∧ s.a = 0x01#8 ∧ s.f = 0xB0#8 ∧ s.b = 0x00#8 ∧ s.c = 0x13#8 ∧
    s.d = 0x00#8 ∧ s.e = 0xD8#8 ∧ s.h = 0x01#8 ∧ s.l = 0x4D#8 ∧ s.getPair .bc = 0x0013#16 ∧
    s.getPair .de = 0x00D8#16 ∧ s.getPair .hl = 0x014D#16 ∧ s.total = 0 ∧ s.ime = false ∧
    s.flagZ = true ∧ s.flagN = false ∧ s.flagH = true ∧ s.flagC = true

/-- R61, which is the spec's decision D24: the source states no construction value for the engine. -/
def Obligations.ResetLeavesSequencerAtLineZero : Prop :=
  let s := State.reset
  s.mode = .oamScan ∧ s.clk = 0 ∧ s.ly = 0x00#8 ∧ s.stat &&& 0x03#8 = 2#8

/-- The invariant that `StepKeepsModeMachineInvariant` and `StepKeepsFlagNibbleAndMemoryForm` carry
holds after reset. -/
def Obligations.ResetSatisfiesInvariant : Prop := State.reset.Inv

/-- R311 (the length check), R310 and R72 (what the constructed machine holds). A byte below 0x8000 that
the image does not reach reads 0 (R72). The zero beyond the image is the spec's decision
D26. The values of the registers R62 leaves open are the model's (assumption 4); the statement only says
they are those of `State.reset`. -/
def Obligations.ConstructionChecksLengthAndPlacesImage : Prop :=
  ∀ (cfg : Config) (image : List Byte),
    (image.length < 0x150 → construct cfg image = .error .romTooSmall) ∧
    (0x150 ≤ image.length → ∃ s, construct cfg image = .ok s ∧
      s = { State.reset with mem := s.mem, cfg := { cfg with romLen := image.length } } ∧ s.mem.wf ∧
      (∀ addr : Word, addr.toNat < 0x8000 → busRead addr s = image.getD addr.toNat 0x00#8) ∧
      ∀ addr : Nat, 0x8000 ≤ addr → s.mem.get addr = Memory.blank)

/-! The instruction cycle -/

/-- R169, R188, R205, R225 (every instruction's cost) and R25 (the pc of an instruction that does not
set it): every instruction completes, on every state. What "taken" means for Z and NZ is the spec's
decision D37, the cost of an unknown escaped opcode is an open parameter (D17, assumption 2), and the
cost and the length of the bare prefix row are the model's (assumption 11). -/
def Obligations.EveryInstructionCompletesAtItsCost : Prop :=
  ∀ (i : Instr) (s : State), ∃ t, exec i s = .next t ∧ t.cost = cyclesOf i s ∧
    (setsPc i = false → t.pc = s.pc + BitVec.ofNat 16 i.length)

/-- R140: "It is total and terminating for every state". -/
def Obligations.StepAlwaysAnswersNext : Prop := ∀ s : State, ∃ t, step s = .next t

/-- R140, R144 to R149, the six steps of a step that is no watchdog step. With the bytes at `pc` decoding
to `i`, the step is: the `ime` synchronisation, the reported reads of the instruction's bytes by ascending
address (decision D31, assumption 19), `exec i`, the auto-enable on `total` before this cost, and
accounting, which drives the rendering engine by exactly the returned cost. That the instruction still
runs when `total` equals the threshold is decision D32. -/
def Obligations.StepRunsTheDecodedInstruction : Prop :=
  ∀ (s : State) (i : Instr) (rest : List Byte), s.pc ≠ 0x0038#16 → s.total ≤ s.cfg.watchdogThreshold →
    decode [busRead s.pc s, busRead (s.pc + 1#16) s, busRead (s.pc + 2#16) s] = .ok (i, rest) →
    fetchedInstr s = i ∧
    ∃ t, exec i (noteReads s.pc i.length { s with ime := s.ime || decide (s.ifReg &&& s.ie ≠ 0#8) }) =
        .next t ∧
      step s = .next (advanceRendering t.cost.toNat
        { t with ime := t.ime || decide (t.cfg.autoImeThreshold < t.total), total := t.total + t.cost.toNat })

/-- R141, R142, R143. Strictly greater is decision D32, the forced display values are parameters (D16,
assumption 2; the places of their three fixed bits are D7), and step 6 on a watchdog step is the parameter
of D15. -/
def Obligations.WatchdogForcesRestart : Prop :=
  ∀ s : State, s.pc = 0x0038#16 ∨ s.cfg.watchdogThreshold < s.total →
    step s = .next (
      let forced := { s with
        pc := 0x0100#16, ime := true, ifReg := 0xFF#8, ie := 0xFF#8, lcdc := forcedLcdc s.cfg,
        bgp := s.cfg.watchdogBgp, cost := 20#8 }
      if s.cfg.watchdogAccounts then advanceRendering 20 { forced with total := s.total + 20 }
      else forced) ∧
    (forcedLcdc s.cfg).getLsbD 7 = true ∧ (forcedLcdc s.cfg).getLsbD 1 = true ∧
    (forcedLcdc s.cfg).getLsbD 0 = true

/-- R151 and R320, which the spec derives from R141 to R143, over any number of steps and any configuration: once the budget is spent no instruction
runs again; the registers and the stored bytes stay as they were. -/
def Obligations.WatchdogIsPermanentPastTheBudget : Prop :=
  ∀ (k : Nat) (s : State), s.cfg.watchdogThreshold < s.total →
    ∃ t, core.run (k + 1) s = .next t ∧ t.pc = 0x0100#16 ∧ t.ime = true ∧ t.ifReg = 0xFF#8 ∧
      t.ie = 0xFF#8 ∧ t.lcdc = forcedLcdc s.cfg ∧ t.bgp = s.cfg.watchdogBgp ∧ t.cost = 20#8 ∧
      SameRegs s t ∧ t.mem = s.mem ∧ t.trace = s.trace ∧ t.cfg = s.cfg ∧ s.total ≤ t.total

/-- R28, R144, R148, R221: the one law of `ime` over a step that is no watchdog step. That DI clears it
is decision D14, and "exceeds" in step 5 is decision D32. -/
def Obligations.ImeAfterStep : Prop :=
  ∀ s t : State, watchdogCondition s = false → step s = .next t →
    t.ime = ((decide (fetchedInstr s ≠ .di) && (s.ime || decide (s.ifReg &&& s.ie ≠ 0#8))) ||
      decide (s.cfg.autoImeThreshold < s.total))

/-- R29 (unbounded by decision D27), R149, R150, and R143 (decision D15) for a watchdog step without
accounting. `cost` is the model's own field for the value a step returns (assumption 6). -/
def Obligations.TotalCountsReturnedCosts : Prop :=
  ∀ s t : State, step s = .next t →
    t.total = s.total +
      (if watchdogCondition s = true ∧ s.cfg.watchdogAccounts = false then 0 else t.cost.toNat)

/-- R27: which instructions write F, and what; that the loads, jumps and RES leave it unchanged is the
spec's decision D14. -/
def Obligations.OnlyCompareAndXorWriteFlags : Prop :=
  ∀ (i : Instr) (s t : State), exec i s = .next t →
    t.f = match i with
      | .cpN n => if s.a = n then 0x80#8 else 0x00#8
      | .xorA => 0x80#8
      | _ => s.f

/-- R28, R286: nothing but `ime` itself depends on `ime`; no interrupt is dispatched. -/
def Obligations.ImeSteersNothing : Prop :=
  ∀ (s t : State) (b : Bool), step s = .next t →
    ∃ b', step { s with ime := b } = .next { t with ime := b' }

/-- R283 (the model keeps the trace as state, assumption 9): the trace only grows, and nothing but the trace depends on it. -/
def Obligations.TraceSteersNothing : Prop :=
  ∀ (s t : State) (old : List Event), step s = .next t →
    ∃ events, t.trace = s.trace ++ events ∧
      step { s with trace := old } = .next { t with trace := old ++ events }

/-- R44, R52, R54, R75: a step changes no stored byte outside VRAM, WRAM, OAM, the reachable generic
I/O bytes and HRAM (so neither ROM nor a generic I/O byte under an overlay), and no parameter. -/
def Obligations.StepChangesOnlyRamCells : Prop :=
  ∀ s t : State, step s = .next t → t.cfg = s.cfg ∧
    ∀ addr : Word, (Region.of addr).isRam = false → t.mem.get addr.toNat = s.mem.get addr.toNat

/-- R243: the invariants of the mode machine are kept by every step, from every state that has them. The
clauses on V-Blank's scanlines and on `clk` are the spec's own derivation in R243. The clause on the
frame-buffer entries holds by their type, two bits: it says that the type is R50's, not what a step does. -/
def Obligations.StepKeepsModeMachineInvariant : Prop :=
  ∀ s t : State, s.PpuInv → step s = .next t →
    t.stat &&& 0x03#8 = t.mode.num ∧ t.ly.toNat ≤ 153 ∧
    (t.mode = .vblank ↔ 144 ≤ t.ly.toNat ∧ t.ly.toNat ≤ 153) ∧
    (t.mode = .oamScan → t.clk < 80) ∧ (t.mode = .drawing → t.clk < 172) ∧
    (t.mode = .hblank → t.clk < 204) ∧ (t.mode = .vblank → t.clk < 456) ∧
    ∀ (y : Fin 144) (x : Fin 160), (t.fb[y][x]).toNat ≤ 3

/-- R23 for F; the canonical form of the stored bytes is the model's own. -/
def Obligations.StepKeepsFlagNibbleAndMemoryForm : Prop :=
  ∀ s t : State, s.FlagInv ∧ s.mem.wf → step s = .next t → t.FlagInv ∧ t.mem.wf

/-! Encoding -/

/-- Words written out from R112 to R118 (95_test_vectors.md V-ENC and V-SRC) decode as they stand; most
byte values are the spec's decision D2. -/
def Obligations.SpecWordsDecode : Prop :=
  decode [0b01010011#8] = .ok (.ldDE, []) ∧ decode [0b01100101#8] = .ok (.ldHL, []) ∧
  decode [0b00011110#8, 0x9A#8] = .ok (.ldEN 0x9A#8, []) ∧
  decode [0b00010001#8, 0xEF#8, 0xBE#8] = .ok (.ldDeNn 0xBEEF#16, []) ∧
  decode [0b00110011#8] = .ok (.incSp, []) ∧ decode [0xCB#8, 0b10101100#8] = .ok (.res5H, []) ∧
  decode [0x20#8, 0xFA#8] = .ok (.jrNzN 0xFA#8, []) ∧
  decode [0xCD#8, 0x10#8, 0x01#8] = .ok (.callNn 0x0110#16, []) ∧
  decode [0xE0#8, 0x40#8] = .ok (.ldhMemNA 0x40#8, []) ∧
  decode [0xC3#8, 0x50#8, 0x01#8] = .ok (.jpNn 0x0150#16, []) ∧ decode [0xAF#8] = .ok (.xorA, []) ∧
  decode [0xFE#8, 0x42#8] = .ok (.cpN 0x42#8, []) ∧ decode [0xFF#8] = .ok (.rst38, []) ∧
  decode [0b01110000#8] = .ok (.unknownOpcode 0x70#8, []) ∧
  decode [0xCB#8, 0b10000110#8] = .ok (.unknownEscapedOpcode 0x86#8, [])

/-- R111 to R118, R121: decoding inverts encoding for every well-formed instruction, with every operand
value. The clause on the prefix row is the model's choice (assumptions 3 and 11): in R117 the prefix is
never an instruction by itself, and the model reads the lone byte 0xCB at the end of a list as its row. -/
def Obligations.DecodeInvertsEncode : Prop :=
  ∀ (i : Instr) (rest : List Byte), i.wellFormed = true → (i = .escapePrefix → rest = []) →
    decode (encode i ++ rest) = .ok (i, rest)

/-- R111 to R118, R121: encoding inverts decoding: the decoder drops no bit of the bytes it reads, and what
it answers is well formed. A list that ends in the lone byte 0xCB decodes to the prefix row by the model's
choice (assumptions 3 and 11). -/
def Obligations.EncodeInvertsDecode : Prop :=
  ∀ (bytes rest : List Byte) (i : Instr), decode bytes = .ok (i, rest) →
    encode i ++ rest = bytes ∧ i.wellFormed = true

/-- R110, R121: three bytes always decode, to an instruction of one to three of them, and the length is
a function of the opcode byte alone. -/
def Obligations.EveryByteSequenceDecodes : Prop :=
  ∀ (op b1 b2 : Byte) (rest : List Byte), ∃ i,
    decode (op :: b1 :: b2 :: rest) = .ok (i, (op :: b1 :: b2 :: rest).drop (1 + operandBytes op)) ∧
    i.length = 1 + operandBytes op ∧ i ≠ .escapePrefix

/-- R118, "Counts" (membership is the spec's decision D1): 80 named opcode bytes, 175 unknown; 56 RES second bytes, 200 unknown. -/
def Obligations.OpcodeMapCounts : Prop :=
  let bytes := (List.range 256).map (BitVec.ofNat 8)
  (bytes.filter fun op => op ≠ 0xCB#8 ∧ decodeUnprefixed op 0#8 0#8 ≠ .unknownOpcode op).length = 80 ∧
  (bytes.filter fun op => op ≠ 0xCB#8 ∧ decodeUnprefixed op 0#8 0#8 = .unknownOpcode op).length = 175 ∧
  (bytes.filter fun op2 => decodeEscaped op2 ≠ .unknownEscapedOpcode op2).length = 56 ∧
  (bytes.filter fun op2 => decodeEscaped op2 = .unknownEscapedOpcode op2).length = 200

/-! Instructions: each result statement gives the whole next state, or the frame with it -/

/-- R220, R221. That DI clears `ime` is the spec's decision D14. -/
def Obligations.NopAndDisableInterrupts : Prop :=
  ∀ s : State, exec .nop s = .next { s with pc := s.pc + 1#16, cost := 4#8 } ∧
    exec .di s = .next { s with ime := false, pc := s.pc + 1#16, cost := 4#8 }

/-- R222, R223: an event and a skip; no register, no flag and no memory changes. Of the spec's two
policies for these bytes (D1) the model takes skip (assumption 10); the fields of the events are decision
D30, the escaped cost is an open parameter (D17, assumption 2). -/
def Obligations.UnknownOpcodesSkip : Prop :=
  ∀ (s : State) (op : Byte),
    exec (.unknownOpcode op) s =
      .next { s with trace := s.trace ++ [.unknownOpcode s.pc op], pc := s.pc + 1#16, cost := 4#8 } ∧
    exec (.unknownEscapedOpcode op) s =
      .next { s with trace := s.trace ++ [.unknownEscapedOpcode s.pc op], pc := s.pc + 2#16,
                     cost := s.cfg.cbUnknownCost }

/-- R180, for the 49 register pairs. What the mnemonic moves, and that no flag is written, is the spec's
decision D14 (assumption 12). -/
def Obligations.LoadRegisterCopies : Prop :=
  ∀ (dst src : Reg) (s : State), ∃ t, exec (Instr.ldRegReg dst src) s = .next t ∧
    t.getReg dst = s.getReg src ∧ (∀ q, q ≠ dst → t.getReg q = s.getReg q) ∧ t.f = s.f ∧
    t.sp = s.sp ∧ t.pc = s.pc + 1#16 ∧ t.cost = 4#8 ∧ SameBusRegs s t ∧ SameEngine s t ∧
    SameReads s t ∧ t.trace = s.trace

/-- R181, for the seven registers. Beyond the source's scenario for LD A,n the effect, and that no flag is
written, is the spec's decision D14 (assumption 12). -/
def Obligations.LoadImmediateWritesRegister : Prop :=
  ∀ (dst : Reg) (n : Byte) (s : State), ∃ t, exec (Instr.ldRegImm dst n) s = .next t ∧
    t.getReg dst = n ∧ (∀ q, q ≠ dst → t.getReg q = s.getReg q) ∧ t.f = s.f ∧
    t.sp = s.sp ∧ t.pc = s.pc + 2#16 ∧ t.cost = 8#8 ∧ SameBusRegs s t ∧ SameEngine s t ∧
    SameReads s t ∧ t.trace = s.trace

/-- R182, for BC, DE, HL and SP: the first-named register takes the high byte (the
spec's decision D4; the SP row is D3; that no flag is written is D14). -/
def Obligations.LoadPairWritesBothHalves : Prop :=
  ∀ (nn : Word) (s : State),
    exec (.ldBcNn nn) s =
      .next { s with b := nn.extractLsb' 8 8, c := nn.extractLsb' 0 8, pc := s.pc + 3#16, cost := 12#8 } ∧
    exec (.ldDeNn nn) s =
      .next { s with d := nn.extractLsb' 8 8, e := nn.extractLsb' 0 8, pc := s.pc + 3#16, cost := 12#8 } ∧
    exec (.ldHlNn nn) s =
      .next { s with h := nn.extractLsb' 8 8, l := nn.extractLsb' 0 8, pc := s.pc + 3#16, cost := 12#8 } ∧
    exec (.ldSpNn nn) s = .next { s with sp := nn, pc := s.pc + 3#16, cost := 12#8 }

/-- R202, for BC, DE, HL and SP: the 16-bit value grows by one modulo 65536, the carry crossing from
the low register into the high one (decision D4; the SP row is D3); F and everything else unchanged. -/
def Obligations.IncrementPairAddsOne : Prop :=
  ∀ (p : Pair) (s : State), ∃ t, exec (Instr.incPair p) s = .next t ∧
    (t.getPair p).toNat = ((s.getPair p).toNat + 1) % 65536 ∧
    (∀ q, q ≠ p → t.getPair q = s.getPair q) ∧
    t.a = s.a ∧ t.f = s.f ∧ t.pc = s.pc + 1#16 ∧ t.cost = 8#8 ∧ SameBusRegs s t ∧ SameEngine s t ∧
    SameReads s t ∧ t.trace = s.trace

/-- R203, for the 56 bit and register pairs: the bit is cleared, every other bit kept (the meaning
is the spec's decision D14). -/
def Obligations.ResetBitClearsOneBit : Prop :=
  ∀ (bit : BitVec 3) (r : Reg) (s : State), ∃ t, exec (Instr.resBitReg bit r) s = .next t ∧
    (∀ k < 8, (t.getReg r).getLsbD k = if k = bit.toNat then false else (s.getReg r).getLsbD k) ∧
    (∀ q, q ≠ r → t.getReg q = s.getReg q) ∧ t.f = s.f ∧ t.sp = s.sp ∧ t.pc = s.pc + 2#16 ∧
    t.cost = 8#8 ∧ SameBusRegs s t ∧ SameEngine s t ∧ SameReads s t ∧ t.trace = s.trace

/-- R183, R185: A is stored through the bus at `nn`, or at `0xFF00 + n`, and every other address reads
as before; in plain storage the byte reads back. The base 0xFF00 is the spec's decision D13, what the
mnemonics move is D14. -/
def Obligations.StoresWriteOneAddress : Prop :=
  ∀ (s : State) (i : Instr) (addr len : Word) (cost : Byte),
    (∃ nn, i = .ldMemNnA nn ∧ addr = nn ∧ len = 3#16 ∧ cost = 16#8) ∨
      (∃ n : Byte, i = .ldhMemNA n ∧ addr = BitVec.ofNat 16 (0xFF00 + n.toNat) ∧ len = 2#16 ∧
        cost = 12#8) →
    ∃ t, exec i s = .next t ∧ t = { memWrite addr s.a s with pc := s.pc + len, cost := cost } ∧
      (∀ x, x ≠ addr → busRead x t = busRead x s) ∧
      (s.mem.wf → (Region.of addr).isRam = true → busRead addr t = s.a) ∧
      SameRegs s t ∧ SameEngine s t ∧
      ((Region.of addr).isRam = true → SameBusRegs s t ∧ t.trace = s.trace)

/-- R184, R186: A takes the byte the bus returns for `nn`, or for `0xFF00 + n`; a missing read is
reported (R80) and nothing else changes. The base 0xFF00 is the spec's decision D13, what the mnemonics move is
D14. -/
def Obligations.LoadsReadOneAddress : Prop :=
  ∀ (s : State) (i : Instr) (addr len : Word) (cost : Byte),
    (∃ nn, i = .ldAMemNn nn ∧ addr = nn ∧ len = 3#16 ∧ cost = 16#8) ∨
      (∃ n : Byte, i = .ldhAMemN n ∧ addr = BitVec.ofNat 16 (0xFF00 + n.toNat) ∧ len = 2#16 ∧
        cost = 12#8) →
    ∃ t, exec i s = .next t ∧
      t = { s with a := busRead addr s, pc := s.pc + len, cost := cost, trace := t.trace } ∧
      t.trace = (if readMisses addr s then s.trace ++ [.unmappedRead addr] else s.trace) ∧
      SameReads s t

/-- R200, R201. -/
def Obligations.CompareAndXorResults : Prop :=
  ∀ (s : State) (n : Byte),
    exec (.cpN n) s =
      .next { s with f := if s.a = n then 0x80#8 else 0x00#8, pc := s.pc + 2#16, cost := 8#8 } ∧
    exec .xorA s = .next { s with a := 0x00#8, f := 0x80#8, pc := s.pc + 1#16, cost := 4#8 }

/-- R161. -/
def Obligations.JumpAbsoluteSetsPc : Prop :=
  ∀ (s : State) (nn : Word), exec (.jpNn nn) s = .next { s with pc := nn, cost := 16#8 }

/-- R162, R163, R164, R116: the target is `pc +16 2 +16 sext_16(e)` and no flag is written (decision D14).
That Z and NZ test bit 7 of F is the spec's decision D37 (R125, assumption 12). -/
def Obligations.RelativeJumpsAddSignedOffset : Prop :=
  ∀ (s : State) (e : Byte),
    let taken := s.pc + 2#16 + offset16 e
    exec (.jrN e) s = .next { s with pc := taken, cost := 12#8 } ∧
    exec (.jrZN e) s = .next (if s.f.getLsbD 7 = true then { s with pc := taken, cost := 12#8 }
      else { s with pc := s.pc + 2#16, cost := 8#8 }) ∧
    exec (.jrNzN e) s = .next (if s.f.getLsbD 7 = false then { s with pc := taken, cost := 12#8 }
      else { s with pc := s.pc + 2#16, cost := 8#8 })

/-- R165, R168, R160: the address of the next instruction is pushed, high byte at `sp - 1` and then low
byte at `sp - 2` (the spec's decision D12); every other address reads as before. -/
def Obligations.CallAndRestartPushReturnAddress : Prop :=
  ∀ (s : State) (i : Instr) (target ret : Word) (cost : Byte),
    (∃ nn, i = .callNn nn ∧ target = nn ∧ ret = s.pc + 3#16 ∧ cost = 24#8) ∨
      (i = .rst38 ∧ target = 0x0038#16 ∧ ret = s.pc + 1#16 ∧ cost = 16#8) →
    ∃ t, exec i s = .next t ∧
      t = { memWrite (s.sp - 2#16) (ret.extractLsb' 0 8)
              (memWrite (s.sp - 1#16) (ret.extractLsb' 8 8) s) with
            sp := s.sp - 2#16, pc := target, cost := cost } ∧
      (∀ x, x ≠ s.sp - 1#16 → x ≠ s.sp - 2#16 → busRead x t = busRead x s) ∧
      t.a = s.a ∧ t.f = s.f ∧ t.b = s.b ∧ t.c = s.c ∧ t.d = s.d ∧ t.e = s.e ∧ t.h = s.h ∧ t.l = s.l ∧
      SameEngine s t

/-- R166, R167, R160, R80: RET and a taken RET NZ pop low byte first (the spec's decision D12), and report
each stack byte that no region holds, the low one first; RET NZ not taken reads no stack. That NZ tests bit
7 of F is the spec's decision D37 (R125, assumption 12). -/
def Obligations.ReturnsPopTheProgramCounter : Prop :=
  ∀ s : State,
    let popped := fun cost : Byte => { s with
      pc := busRead (s.sp + 1#16) s ++ busRead s.sp s, sp := s.sp + 2#16, cost := cost
      trace := s.trace ++ (if readMisses s.sp s then [.unmappedRead s.sp] else []) ++
        (if readMisses (s.sp + 1#16) s then [.unmappedRead (s.sp + 1#16)] else []) }
    exec .ret s = .next (popped 16#8) ∧
    (s.f.getLsbD 7 = false → exec .retNz s = .next (popped 20#8)) ∧
    (s.f.getLsbD 7 = true → exec .retNz s = .next { s with pc := s.pc + 1#16, cost := 8#8 }) ∧
    ∀ cost, SameReads s (popped cost)

/-- The meaning of the bare prefix row is the model's choice (assumption 11, DEDUCED from R117 and R121): in
the spec the prefix is no instruction by itself. It reads the byte at `pc + 1` and runs the row that byte
selects. -/
def Obligations.EscapePrefixRunsTheSelectedRow : Prop :=
  ∀ s : State, ∃ t, exec .escapePrefix s = .next t ∧
    exec (decodeEscaped (busRead (s.pc + 1#16) s)) (noteRead (s.pc + 1#16) s) = .next t

/-- R165 with R166, R82: after a CALL whose two stack bytes are plain storage, RET comes back (the stack's layout is
the spec's decision D12). -/
def Obligations.ReturnUndoesCall : Prop :=
  ∀ (s t : State) (nn : Word), s.mem.wf → (Region.of (s.sp - 1#16)).isRam = true →
    (Region.of (s.sp - 2#16)).isRam = true → exec (.callNn nn) s = .next t →
    ∃ u, exec .ret t = .next u ∧ u.pc = s.pc + 3#16 ∧ SameRegs s u ∧ SameBusRegs s u ∧ SameEngine s u ∧
      u.trace = s.trace ∧ ∀ x, x ≠ s.sp - 1#16 → x ≠ s.sp - 2#16 → busRead x u = busRead x s

/-! The bus -/

/-- R71 with R74 and R75: the address map, range by range. The base addresses are the spec's decisions D5
and D6. -/
def Obligations.AddressMapIsTheTable : Prop :=
  ∀ a : Word,
    (a.toNat ≤ 0x7FFF → Region.of a = .rom) ∧
    (0x8000 ≤ a.toNat ∧ a.toNat ≤ 0x9FFF → Region.of a = .vram) ∧
    (0xA000 ≤ a.toNat ∧ a.toNat ≤ 0xBFFF → Region.of a = .unmapped) ∧
    (0xC000 ≤ a.toNat ∧ a.toNat ≤ 0xDFFF → Region.of a = .wram) ∧
    (0xE000 ≤ a.toNat ∧ a.toNat ≤ 0xFDFF → Region.of a = .unmapped) ∧
    (0xFE00 ≤ a.toNat ∧ a.toNat ≤ 0xFE9F → Region.of a = .oam) ∧
    (0xFEA0 ≤ a.toNat ∧ a.toNat ≤ 0xFEFF → Region.of a = .unmapped) ∧
    (0xFF00 ≤ a.toNat ∧ a.toNat ≤ 0xFF7F →
      Region.of a = if a = 0xFF0F#16 then .overlay .interruptFlag else if a = 0xFF40#16 then .overlay .lcdc
        else if a = 0xFF41#16 then .overlay .stat else if a = 0xFF42#16 then .overlay .scy
        else if a = 0xFF43#16 then .overlay .scx else if a = 0xFF44#16 then .overlay .ly
        else if a = 0xFF47#16 then .overlay .bgp else if a = 0xFF48#16 then .overlay .obp0
        else if a = 0xFF49#16 then .overlay .obp1 else if a = 0xFF4A#16 then .overlay .wy
        else if a = 0xFF4B#16 then .overlay .wx else .io) ∧
    (0xFF80 ≤ a.toNat ∧ a.toNat ≤ 0xFFFE → Region.of a = .hram) ∧
    (a = 0xFFFF#16 → Region.of a = .interruptEnable)

/-- R73 (and R74 for the generic I/O bytes): in plain storage a written byte reads back, in every mode and
whatever LCDC holds; the write has no other effect and a read has none. The addresses are the spec's
decisions D5 and D6; the canonical form `wf` of the stored bytes is the model's own. -/
def Obligations.RamRoundTrip : Prop :=
  ∀ (s : State) (a : Word) (v : Byte), s.mem.wf → (Region.of a).isRam = true →
    busRead a (memWrite a v s) = v ∧ memWrite a v s = { s with mem := (memWrite a v s).mem } ∧
    (memWrite a v s).mem.wf ∧ (memRead a s).1 = s.mem.get a.toNat ∧ (memRead a s).2 = s

/-- R77: a write changes at most the one cell or register its address decodes to, and only ROM, unmapped
addresses, STAT and LY do not return the value written (their addresses are the spec's decision D6, what
their writes do is D25). -/
def Obligations.WriteLeavesOtherAddresses : Prop :=
  ∀ (s : State) (a : Word) (v : Byte),
    let t := memWrite a v s
    SameRegs s t ∧ SameEngine s t ∧ t.pc = s.pc ∧ t.cost = s.cost ∧
    (∀ x, x ≠ a → busRead x t = busRead x s) ∧ (∀ k, k ≠ a.toNat → t.mem.get k = s.mem.get k) ∧
    (Region.of a ≠ .unmapped → t.trace = s.trace) ∧
    (s.mem.wf → Region.of a ≠ .rom → Region.of a ≠ .unmapped → a ≠ 0xFF41#16 → a ≠ 0xFF44#16 →
      busRead a t = v)

/-- R75, and R31 for IE: what each overlay address reads and writes (the addresses are the spec's decision
D6, the kept bits of STAT D25). -/
def Obligations.OverlayRegistersReadAndWrite : Prop :=
  ∀ (s : State) (v : Byte),
    (busRead 0xFF0F#16 s = s.ifReg ∧ memWrite 0xFF0F#16 v s = { s with ifReg := v }) ∧
    (busRead 0xFF40#16 s = s.lcdc ∧ memWrite 0xFF40#16 v s = { s with lcdc := v }) ∧
    (busRead 0xFF41#16 s = s.stat ∧ ∃ w, memWrite 0xFF41#16 v s = { s with stat := w } ∧
      ∀ k < 8, w.getLsbD k = if k < 2 then s.stat.getLsbD k else v.getLsbD k) ∧
    (busRead 0xFF42#16 s = s.scy ∧ memWrite 0xFF42#16 v s = { s with scy := v }) ∧
    (busRead 0xFF43#16 s = s.scx ∧ memWrite 0xFF43#16 v s = { s with scx := v }) ∧
    (busRead 0xFF44#16 s = s.ly ∧ memWrite 0xFF44#16 v s = s) ∧
    (busRead 0xFF47#16 s = s.bgp ∧ memWrite 0xFF47#16 v s = { s with bgp := v }) ∧
    (busRead 0xFF48#16 s = s.obp0 ∧ memWrite 0xFF48#16 v s = { s with obp0 := v }) ∧
    (busRead 0xFF49#16 s = s.obp1 ∧ memWrite 0xFF49#16 v s = { s with obp1 := v }) ∧
    (busRead 0xFF4A#16 s = s.wy ∧ memWrite 0xFF4A#16 v s = { s with wy := v }) ∧
    (busRead 0xFF4B#16 s = s.wx ∧ memWrite 0xFF4B#16 v s = { s with wx := v }) ∧
    (busRead 0xFFFF#16 s = s.ie ∧ memWrite 0xFFFF#16 v s = { s with ie := v })

/-- R72, R78, R80: ROM reads give the image byte, or 0 and an event beyond the image; ROM writes change
nothing; an address no region covers reads 0 with an event and discards a write with an event. The read
beyond the image is decision D26, the silent ROM write D30, the map D5. -/
def Obligations.RomAndUnmappedAccesses : Prop :=
  ∀ (s : State) (a : Word) (v : Byte),
    (Region.of a = .rom → memWrite a v s = s ∧
      (a.toNat < s.cfg.romLen → memRead a s = (s.mem.get a.toNat, s)) ∧
      (s.cfg.romLen ≤ a.toNat →
        memRead a s = (0x00#8, { s with trace := s.trace ++ [.unmappedRead a] }))) ∧
    (Region.of a = .unmapped →
      memRead a s = (0x00#8, { s with trace := s.trace ++ [.unmappedRead a] }) ∧
      memWrite a v s = { s with trace := s.trace ++ [.unmappedWrite a v] })

/-- R76: a read changes no state of the machine, and two reads of one address return the same byte. -/
def Obligations.ReadsAreIdempotent : Prop :=
  ∀ (s : State) (a : Word), (memRead a s).2 = { s with trace := (memRead a s).2.trace } ∧
    ∀ x, (memRead x (memRead a s).2).1 = (memRead x s).1

/-! The rendering engine -/

/-- R231 to R235: the four transitions, and no change but `clk` below a threshold. That the overshoot is
dropped is the spec's decision D18. -/
def Obligations.ModeMachineTransitions : Prop :=
  ∀ (s : State) (c : Nat),
    (s.clk + c < s.mode.threshold → advanceClock c s = { s with clk := s.clk + c }) ∧
    (s.mode = .oamScan → 80 ≤ s.clk + c → advanceClock c s =
      { s with clk := 0, mode := .drawing, stat := (s.stat &&& 0xFC#8) ||| 3#8 }) ∧
    (s.mode = .drawing → 172 ≤ s.clk + c → advanceClock c s = renderScanline s.ly.toNat
      { s with clk := 0, mode := .hblank, stat := (s.stat &&& 0xFC#8) ||| 0#8 }) ∧
    (s.mode = .hblank → 204 ≤ s.clk + c → advanceClock c s =
      if s.ly + 1#8 = 144#8 then
        { s with clk := 0, ly := s.ly + 1#8, mode := .vblank, stat := (s.stat &&& 0xFC#8) ||| 1#8 }
      else { s with clk := 0, ly := s.ly + 1#8, mode := .oamScan,
                    stat := (s.stat &&& 0xFC#8) ||| 2#8 }) ∧
    (s.mode = .vblank → s.ly.toNat < 153 → 456 ≤ s.clk + c → advanceClock c s =
      { s with clk := 0, ly := s.ly + 1#8, stat := (s.stat &&& 0xFC#8) ||| 1#8 }) ∧
    (s.mode = .vblank → s.ly.toNat = 153 → 456 ≤ s.clk + c → advanceClock c s =
      { s with clk := 0, ly := 0#8, mode := .oamScan, stat := (s.stat &&& 0xFC#8) ||| 2#8 })

/-- R149, R241: what driving the rendering engine leaves unchanged: every register, parameter and
stored byte, `total`, IE, every display register but STAT's low bits and LY, bits 7..1 of IF (that the
V-Blank request is bit 0 is the spec's decision D11), and every frame-buffer row but the current one. -/
def Obligations.RenderingLeavesTheRest : Prop :=
  ∀ (s : State) (c : Nat),
    let t := advanceRendering c s
    SameRegs s t ∧ t.pc = s.pc ∧ t.ime = s.ime ∧ t.total = s.total ∧ t.ie = s.ie ∧ t.lcdc = s.lcdc ∧
    t.scy = s.scy ∧ t.scx = s.scx ∧ t.bgp = s.bgp ∧ t.obp0 = s.obp0 ∧ t.obp1 = s.obp1 ∧ t.wy = s.wy ∧
    t.wx = s.wx ∧ t.mem = s.mem ∧ t.cost = s.cost ∧ t.trace = s.trace ∧ t.cfg = s.cfg ∧
    (∀ k, 1 ≤ k → t.ifReg.getLsbD k = s.ifReg.getLsbD k) ∧
    (∀ k, 2 ≤ k → t.stat.getLsbD k = s.stat.getLsbD k) ∧
    (∀ y : Fin 144, y.val ≠ s.ly.toNat → t.fb[y] = s.fb[y])

/-- R241, R234: bit 0 of IF is set exactly by the call that goes from HBlank to VBlank, and only then
(the bit's place is the spec's decision D11). -/
def Obligations.VblankRequestedOnEntry : Prop :=
  ∀ (s : State) (c : Nat), advanceRendering c s =
    if s.mode = .hblank ∧ (advanceClock c s).mode = .vblank then
      { advanceClock c s with ifReg := s.ifReg ||| 0x01#8 }
    else advanceClock c s

/-- R237: the mode cycle fed one cycle at a time, from OAMScan of scanline 0, with the one
frame-complete of a frame. -/
def Obligations.OneCycleModeCycle : Prop :=
  ∀ s : State, s.mode = .oamScan → s.clk = 0 → s.ly = 0#8 →
    (∀ y k, y < 144 → k < 456 → let r := oneCycleRun (456 * y + k) s
      r.1.ly = BitVec.ofNat 8 y ∧ r.2 = 0 ∧
      r.1.mode = if k < 80 then .oamScan else if k < 252 then .drawing else .hblank) ∧
    (∀ y k, 144 ≤ y → y < 154 → k < 456 → let r := oneCycleRun (456 * y + k) s
      r.1.ly = BitVec.ofNat 8 y ∧ r.2 = 1 ∧ r.1.mode = .vblank) ∧
    let r := oneCycleRun 70224 s
    r.1.ly = 0#8 ∧ r.2 = 1 ∧ r.1.mode = .oamScan ∧ r.1.clk = 0

/-- R239 (the spec's decision D35): the mode machine does not read LCDC. -/
def Obligations.ModeMachineIgnoresLcdc : Prop :=
  ∀ (s : State) (c : Nat) (v : Byte),
    let t := advanceClock c s
    let u := advanceClock c { s with lcdc := v }
    u.mode = t.mode ∧ u.clk = t.clk ∧ u.ly = t.ly ∧ u.stat = t.stat ∧
    frameComplete c { s with lcdc := v } = frameComplete c s

/-! The compositor -/

/-- R250, R251: rendering row `y` writes that row and nothing else; with the display off it is all 0
(that display-enable is bit 7 is the spec's decision D7, assumption 12). -/
def Obligations.RenderingWritesOneRow : Prop :=
  ∀ (s : State) (y : Fin 144),
    renderScanline y s = { s with fb := (renderScanline y s).fb } ∧
    (∀ k : Fin 144, k ≠ y → (renderScanline y s).fb[k] = s.fb[k]) ∧
    (s.lcdc.getLsbD 7 = false → ∀ x : Fin 160, (renderScanline y s).fb[y][x] = 0#2)

/-- R252 to R257: the background's pixel is the shade of its colour index at that column, or 0 with the
background off (bit places, bases, bitplane and palette order are the spec's decisions D7, D9, D10); with
the window and the sprites off it is what the frame buffer gets. -/
def Obligations.BackgroundRow : Prop :=
  ∀ (s : State) (y : Fin 144) (x : Fin 160),
    let bx := (x.val + s.scx.toNat) % 256
    let by' := (y.val + s.scy.toNat) % 256
    let vram := fun off => s.mem.get (0x8000 + off)
    let idx := vram ((if s.lcdc.getLsbD 3 then 0x1C00 else 0x1800) + by' / 8 * 32 + bx / 8)
    let tile := if s.lcdc.getLsbD 4 then idx.toNat * 16
      else if idx.toNat < 128 then 0x1000 + idx.toNat * 16 else 0x0800 + (idx.toNat - 128) * 16
    let p0 := vram (tile + 2 * (by' % 8))
    let p1 := vram (tile + 2 * (by' % 8) + 1)
    let ci := bitAt p1 (7 - bx % 8) * 2 + bitAt p0 (7 - bx % 8)
    (s.backgroundPixel x y).toNat = (if s.lcdc.getLsbD 0 then s.bgp.toNat / 2 ^ (2 * ci) % 4 else 0) ∧
    (s.lcdc.getLsbD 7 = true → s.lcdc.getLsbD 5 = false → s.lcdc.getLsbD 1 = false →
      (renderScanline y s).fb[y][x] = s.backgroundPixel x y)

/-- R259 to R261: the window is drawn over the background from row WY and column WX - 7 on, and a window
pixel of colour index 0 leaves what is below it; with the sprites off that is what the frame buffer gets.
Bit places, bases, bitplane and palette order are the spec's decisions D7, D9 and D10, the row condition
D19, the coordinates D20, the tile-data mode D38. For WX below 7 the formula is D20's own guess: U7 asks a
claim about the hardware to add the premise that WX is at least 7. -/
def Obligations.WindowPixelsAreTransparentAtIndexZero : Prop :=
  ∀ (s : State) (x y : Nat) (below : Shade),
    let covered := s.lcdc.getLsbD 5 = true ∧ s.wy.toNat ≤ y ∧ s.wx.toNat ≤ x + 7
    let vram := fun off => s.mem.get (0x8000 + off)
    let wx := x + 7 - s.wx.toNat
    let wy := y - s.wy.toNat
    let idx := vram ((if s.lcdc.getLsbD 6 then 0x1C00 else 0x1800) + wy / 8 * 32 + wx / 8)
    let tile := if s.lcdc.getLsbD 4 then idx.toNat * 16
      else if idx.toNat < 128 then 0x1000 + idx.toNat * 16 else 0x0800 + (idx.toNat - 128) * 16
    let ci := bitAt (vram (tile + 2 * (wy % 8) + 1)) (7 - wx % 8) * 2 +
      bitAt (vram (tile + 2 * (wy % 8))) (7 - wx % 8)
    (¬ covered → s.windowPixel x y below = below) ∧
    (covered → ci = 0 → s.windowPixel x y below = below) ∧
    (covered → ci ≠ 0 → (s.windowPixel x y below).toNat = s.bgp.toNat / 2 ^ (2 * ci) % 4) ∧
    ∀ (_ : y < 144) (_ : x < 160), s.lcdc.getLsbD 7 = true → s.lcdc.getLsbD 1 = false →
      (renderScanline y s).fb[y][x] = s.windowPixel x y (s.backgroundPixel x y)

/-- R263: the selection holds at most 10 sprites, in OAM order, each covering the scanline by its Y byte
alone; a covering sprite is left out only when 10 earlier ones are in (the size bit is
the spec's decision D7, the entry's layout D8). -/
def Obligations.SpriteSelection : Prop :=
  ∀ (s : State) (y : Nat),
    let covers := fun i => (s.mem.get (0xFE00 + 4 * i)).toNat ≤ y + 16 ∧
      y + 16 < (s.mem.get (0xFE00 + 4 * i)).toNat + if s.lcdc.getLsbD 2 then 16 else 8
    let sel := s.selectedSprites y
    sel.length ≤ 10 ∧ sel.Pairwise (· < ·) ∧ (∀ i ∈ sel, i < 40 ∧ covers i) ∧
    ∀ i, i < 40 → covers i → i ∉ sel → sel.length = 10 ∧ ∀ j ∈ sel, j < i

/-- R264: the drawing list is the selection sorted ascending by X byte, OAM order among equal X. -/
def Obligations.SpriteSortIsStable : Prop :=
  ∀ (s : State) (y : Nat), (s.sortedSprites y).Perm (s.selectedSprites y) ∧
    (s.sortedSprites y).Pairwise fun i j => s.spriteX i < s.spriteX j ∨ (s.spriteX i = s.spriteX j ∧ i < j)

/-- R265: where sprites overlap, the one with the lowest X, and within equal X the one earlier in OAM,
decides the pixel: a selected sprite that is opaque there, has no background-priority bit, and before
which no selected sprite is opaque there, gives the entry its own shade (decisions D7, D8, D22,
D38 of the spec). -/
def Obligations.LeftmostOpaqueSpriteWins : Prop :=
  ∀ (s : State) (y : Fin 144) (x : Fin 160) (i : Nat),
    s.lcdc.getLsbD 7 = true → s.lcdc.getLsbD 1 = true → i ∈ s.selectedSprites y →
    s.spriteCoversColumn x i = true → s.spriteColour x y i ≠ 0#2 → (s.spriteAttr i).getLsbD 7 = false →
    (∀ j ∈ s.selectedSprites y, j ≠ i → s.spriteCoversColumn x j = true → s.spriteColour x y j ≠ 0#2 →
      s.spriteX i < s.spriteX j ∨ (s.spriteX i = s.spriteX j ∧ i < j)) →
    (renderScanline y s).fb[y][x] = shade (s.spritePalette i) (s.spriteColour x y i)

/-- R266, R267, R268, R270: one sprite drawn at one screen pixel of a row it covers, over the shade
painted there (decisions D7, D8, D10, D21, D22, D29, D38 of the spec). -/
def Obligations.SpritePixelRule : Prop :=
  ∀ (s : State) (x y i : Nat) (painted : Shade),
    let oam := fun k => s.mem.get (0xFE00 + 4 * i + k)
    let vram := fun off => s.mem.get (0x8000 + off)
    let h := if s.lcdc.getLsbD 2 then 16 else 8
    let attr := oam 3
    let row := y + 16 - (oam 0).toNat
    let line := if attr.getLsbD 6 then h - 1 - row else row
    let tile := if s.lcdc.getLsbD 2 then (oam 2).toNat / 2 * 2 else (oam 2).toNat
    let px := x + 8 - (oam 1).toNat
    let pos := if attr.getLsbD 5 then px else 7 - px
    let ci := bitAt (vram (tile * 16 + line * 2 + 1)) pos * 2 + bitAt (vram (tile * 16 + line * 2)) pos
    let palette := if attr.getLsbD 4 then s.obp1 else s.obp0
    (oam 0).toNat ≤ y + 16 → y + 16 < (oam 0).toNat + h →
    (¬ ((oam 1).toNat ≤ x + 8 ∧ x < (oam 1).toNat) → s.spritePixel x y i painted = painted) ∧
    ((oam 1).toNat ≤ x + 8 → x < (oam 1).toNat →
      (ci = 0 → s.spritePixel x y i painted = painted) ∧
      (attr.getLsbD 7 = true → painted ≠ 0#2 → s.spritePixel x y i painted = painted) ∧
      (ci ≠ 0 → attr.getLsbD 7 = false ∨ painted = 0#2 →
        (s.spritePixel x y i painted).toNat = palette.toNat / 2 ^ (2 * ci) % 4))

/-- R255, R90: the two addressing modes of tile data; every VRAM offset the compositor forms, from the
coordinates it forms, lies in the 8192 bytes of VRAM (decisions D7, D8, D9, D20, D22 of the spec); and a row
depends on no stored byte outside VRAM and OAM. -/
def Obligations.CompositorReadsStayInVram : Prop :=
  (∀ idx : Byte, tileOffset true idx = idx.toNat * 16 ∧
    (tileOffset false idx : Int) = 0x1000 + idx.toInt * 16) ∧
  (∀ (low second : Bool) (idx : Byte) (mx my line : Nat), mx < 256 → my < 256 → line < 8 →
    mapOffset second + my / 8 * 32 + mx / 8 < 8192 ∧ tileOffset low idx + 2 * line + 1 < 8192) ∧
  (∀ (s : State) (x y : Nat), x < 160 → y < 144 →
    (x + s.scx.toNat) % 256 < 256 ∧ (y + s.scy.toNat) % 256 < 256 ∧
    x + 7 - s.wx.toNat < 256 ∧ y - s.wy.toNat < 256) ∧
  (∀ (s : State) (y i : Nat), s.spriteCovers y i = true → s.spriteRowOffset y i + 1 < 8192) ∧
  ∀ (s : State) (m : Memory) (y : Nat),
    (∀ k, 0x8000 ≤ k ∧ k < 0xA000 ∨ 0xFE00 ≤ k ∧ k < 0xFEA0 → m.get k = s.mem.get k) →
    (renderScanline y { s with mem := m }).fb = (renderScanline y s).fb

/-- R250, R252, R259, R262, R265, the layers of one entry with the display on (bit places: decision D7): the
background's pixel, the window's over it, and over that, with the sprites on, every selected sprite from the
last of the sorted list to the first. What each layer draws is `BackgroundRow`,
`WindowPixelsAreTransparentAtIndexZero` and `SpritePixelRule`. -/
def Obligations.RowEntryIsSpritesOverWindowOverBackground : Prop :=
  ∀ (s : State) (y : Fin 144) (x : Fin 160), s.lcdc.getLsbD 7 = true →
    let painted := s.windowPixel x y (s.backgroundPixel x y)
    (renderScanline y s).fb[y][x] =
      if s.lcdc.getLsbD 1 then (s.sortedSprites y).foldr (fun i under => s.spritePixel x y i under) painted
      else painted
end

