-- ==== Sys2Proof/Laws/Memory.lean ====
section
/-! SUPPORT. The laws of the stored bytes: read after write, the canonical form is kept, and equal bytes
in canonical form are equal lists. -/

namespace Sys2Proof.Machine

@[simp] theorem Memory.get_nil (addr : Nat) : Memory.get [] addr = Memory.blank := rfl

theorem Memory.wf_nil : Memory.wf [] := ⟨List.Pairwise.nil, fun _ h => by simp at h⟩

theorem Memory.get_cons (key : Nat) (byte : Byte) (rest : Memory) (addr : Nat) :
    Memory.get ((key, byte) :: rest) addr = if key = addr then byte else Memory.get rest addr := rfl

theorem Memory.mem_entry {addr : Nat} {value : Byte} {p : Host.Cell}
    (h : p ∈ Memory.entry addr value) : p = (addr, value) ∧ value ≠ Memory.blank := by
  unfold Memory.entry at h
  split at h
  · simp at h
  · exact ⟨by simpa using h, ‹_›⟩

theorem Memory.get_entry_append (addr : Nat) (value : Byte) (rest : Memory) (x : Nat) (hx : x ≠ addr) :
    Memory.get (Memory.entry addr value ++ rest) x = Memory.get rest x := by
  unfold Memory.entry
  split
  · rfl
  · simp [Memory.get_cons, hx.symm]

/-- A cell no entry lists reads as the blank byte. -/
theorem Memory.get_unlisted (m : Memory) (addr : Nat) (h : ∀ p ∈ m, p.1 ≠ addr) :
    Memory.get m addr = Memory.blank := by
  induction m with
  | nil => rfl
  | cons p rest ih =>
    rw [show p = (p.1, p.2) from rfl, Memory.get_cons, if_neg (h p (by simp))]
    exact ih fun q hq => h q (by simp [hq])

theorem Memory.get_entry_same (addr : Nat) (value : Byte) (rest : Memory) (h : ∀ p ∈ rest, p.1 ≠ addr) :
    Memory.get (Memory.entry addr value ++ rest) addr = value := by
  unfold Memory.entry
  split
  · simp [Memory.get_unlisted rest addr h, *]
  · simp [Memory.get_cons]

/-- In a canonical list the addresses after the first are larger than it. -/
theorem Memory.wf_cons {p : Host.Cell} {rest : Memory} (h : Memory.wf (p :: rest)) :
    (∀ q ∈ rest, p.1 < q.1) ∧ Memory.wf rest ∧ p.2 ≠ Memory.blank ∧ p.1 < 65536 := by
  obtain ⟨hp, hall⟩ := h
  obtain ⟨h1, h2⟩ := List.pairwise_cons.mp hp
  exact ⟨h1, ⟨h2, fun q hq => hall q (by simp [hq])⟩, hall p (by simp)⟩

theorem Memory.get_set_other (m : Memory) (addr : Nat) (value : Byte) (x : Nat) (hx : x ≠ addr) :
    (m.set addr value).get x = m.get x := by
  induction m with
  | nil => simpa [Memory.set] using Memory.get_entry_append addr value [] x hx
  | cons p rest ih =>
    obtain ⟨key, byte⟩ := p
    unfold Memory.set
    split
    · exact Memory.get_entry_append addr value _ x hx
    · split
      · rename_i heq
        rw [Memory.get_entry_append addr value _ x hx, Memory.get_cons, if_neg (by omega)]
      · rw [Memory.get_cons, Memory.get_cons, ih]

theorem Memory.get_set_same (m : Memory) (addr : Nat) (value : Byte) (h : m.wf) :
    (m.set addr value).get addr = value := by
  induction m with
  | nil => simpa [Memory.set] using Memory.get_entry_same addr value [] (by simp)
  | cons p rest ih =>
    obtain ⟨key, byte⟩ := p
    obtain ⟨hgt, hrest, -, -⟩ := Memory.wf_cons h
    unfold Memory.set
    split
    · rename_i hlt
      refine Memory.get_entry_same addr value _ fun q hq => ?_
      rcases List.mem_cons.mp hq with rfl | hq
      · exact Nat.ne_of_gt hlt
      · have := hgt q hq; simp at this; omega
    · split
      · rename_i heq
        refine Memory.get_entry_same addr value _ fun q hq => ?_
        have := hgt q hq; simp at this; omega
      · rename_i hne
        rw [Memory.get_cons, if_neg (fun he => hne he.symm), ih hrest]

/-- Every entry of the list after a write is the written cell or was there before. -/
theorem Memory.mem_set {m : Memory} {addr : Nat} {value : Byte} {q : Host.Cell}
    (h : q ∈ m.set addr value) : (q = (addr, value) ∧ value ≠ Memory.blank) ∨ q ∈ m := by
  induction m with
  | nil => exact .inl (Memory.mem_entry h)
  | cons p rest ih =>
    obtain ⟨key, byte⟩ := p
    unfold Memory.set at h
    split at h
    · exact (List.mem_append.mp h).imp Memory.mem_entry id
    · split at h
      · exact (List.mem_append.mp h).imp Memory.mem_entry fun h => by simp [h]
      · rcases List.mem_cons.mp h with rfl | h
        · simp
        · exact (ih h).imp id fun h => by simp [h]

theorem Memory.wf_entry_append {addr : Nat} {value : Byte} {rest : Memory} (ha : addr < 65536)
    (h : rest.wf) (hlt : ∀ q ∈ rest, addr < q.1) : Memory.wf (Memory.entry addr value ++ rest) := by
  unfold Memory.entry
  split
  · exact h
  · rename_i hv
    refine ⟨List.pairwise_cons.mpr ⟨hlt, h.1⟩, fun q hq => ?_⟩
    rcases List.mem_cons.mp hq with rfl | hq
    · exact ⟨hv, ha⟩
    · exact h.2 q hq

/-- A write keeps the canonical form. -/
theorem Memory.wf_set (m : Memory) (addr : Nat) (value : Byte) (h : m.wf) (ha : addr < 65536) :
    (m.set addr value).wf := by
  induction m with
  | nil =>
    have := Memory.wf_entry_append (value := value) (rest := []) ha Memory.wf_nil (by simp)
    simpa [Memory.set] using this
  | cons p rest ih =>
    obtain ⟨key, byte⟩ := p
    obtain ⟨hgt, hrest, hb, hk⟩ := Memory.wf_cons h
    unfold Memory.set
    split
    · rename_i hlt
      refine Memory.wf_entry_append ha h fun q hq => ?_
      rcases List.mem_cons.mp hq with rfl | hq
      · exact hlt
      · exact Nat.lt_trans hlt (hgt q hq)
    · split
      · rename_i heq
        exact Memory.wf_entry_append ha hrest fun q hq => heq ▸ hgt q hq
      · rename_i hnlt hne
        have hwf := ih hrest
        refine ⟨List.pairwise_cons.mpr ⟨fun q hq => ?_, hwf.1⟩, fun q hq => ?_⟩
        · rcases Memory.mem_set hq with ⟨rfl, -⟩ | hq
          · simp; omega
          · exact hgt q hq
        · rcases List.mem_cons.mp hq with rfl | hq
          · exact ⟨hb, hk⟩
          · exact hwf.2 q hq

/-- In canonical form equal contents are equal data. -/
theorem Memory.ext_of_wf {m m' : Memory} (h : m.wf) (h' : m'.wf)
    (heq : ∀ addr, m.get addr = m'.get addr) : m = m' := by
  induction m generalizing m' with
  | nil =>
    cases m' with
    | nil => rfl
    | cons p rest =>
      have hp := heq p.1
      rw [show p = (p.1, p.2) from rfl, Memory.get_cons, if_pos rfl] at hp
      exact absurd hp.symm (Memory.wf_cons h').2.2.1
  | cons p rest ih =>
    cases m' with
    | nil =>
      have hp := heq p.1
      rw [show p = (p.1, p.2) from rfl, Memory.get_cons, if_pos rfl] at hp
      exact absurd hp (Memory.wf_cons h).2.2.1
    | cons p' rest' =>
      obtain ⟨key, byte⟩ := p
      obtain ⟨key', byte'⟩ := p'
      obtain ⟨hgt, hrest, hb, -⟩ := Memory.wf_cons h
      obtain ⟨hgt', hrest', hb', -⟩ := Memory.wf_cons h'
      simp only at hgt hgt' hb hb'
      have key_eq : key = key' := by
        rcases Nat.lt_trichotomy key key' with hlt | he | hlt
        · have := heq key
          rw [Memory.get_cons, if_pos rfl, Memory.get_cons, if_neg (Nat.ne_of_gt hlt),
            Memory.get_unlisted rest' key fun q hq => by have := hgt' q hq; omega] at this
          exact absurd this hb
        · exact he
        · have := heq key'
          rw [Memory.get_cons, if_neg (Nat.ne_of_gt hlt), Memory.get_cons, if_pos rfl,
            Memory.get_unlisted rest key' fun q hq => by have := hgt q hq; omega] at this
          exact absurd this.symm hb'
      subst key_eq
      have byte_eq : byte = byte' := by
        have := heq key
        simpa [Memory.get_cons] using this
      subst byte_eq
      rw [ih hrest hrest' fun x => ?_]
      by_cases hx : key = x
      · rw [Memory.get_unlisted rest x fun q hq => by have := hgt q hq; omega,
          Memory.get_unlisted rest' x fun q hq => by have := hgt' q hq; omega]
      · have := heq x
        simpa [Memory.get_cons, hx] using this

/-- The cells of an image lie where the image is placed. -/
theorem mem_loadImage {image : List Byte} {addr : Nat} {q : Host.Cell} (h : q ∈ loadImage addr image) :
    addr ≤ q.1 ∧ q.1 < addr + image.length ∧ q.2 ≠ Memory.blank := by
  induction image generalizing addr with
  | nil => simp [loadImage] at h
  | cons v rest ih =>
    rcases List.mem_append.mp h with h | h
    · obtain ⟨rfl, hv⟩ := Memory.mem_entry h
      exact ⟨Nat.le_refl _, by simp, hv⟩
    · have := ih h
      simp only [List.length_cons]
      exact ⟨by omega, by omega, this.2.2⟩

/-- Loading an image gives a canonical list. -/
theorem loadImage_wf (image : List Byte) (addr : Nat) (h : addr + image.length ≤ 65536) :
    (loadImage addr image).wf := by
  induction image generalizing addr with
  | nil => exact Memory.wf_nil
  | cons v rest ih =>
    simp only [List.length_cons] at h
    exact Memory.wf_entry_append (by omega) (ih (addr + 1) (by omega)) fun q hq => by
      have := mem_loadImage hq; omega

/-- A loaded image reads back. -/
theorem get_loadImage (image : List Byte) (addr k : Nat) :
    (loadImage addr image).get (addr + k) = image.getD k Memory.blank := by
  induction image generalizing addr k with
  | nil => simp [loadImage]
  | cons v rest ih =>
    cases k with
    | zero =>
      exact Memory.get_entry_same addr v _ fun q hq => by have := mem_loadImage hq; omega
    | succ k =>
      rw [loadImage, Memory.get_entry_append _ _ _ _ (by omega), show addr + (k + 1) = addr + 1 + k by omega,
        ih]
      rfl

end Sys2Proof.Machine
end

