-- ==== Sys2Proof/Laws/State.lean ====
section
/-! SUPPORT. For each named update of the state, what it writes and what it leaves: one conjunct per
field, which simp uses as one rewriting rule per field. -/

namespace Sys2Proof.Machine

@[simp] theorem emit_written (s : State) (ev : Event) :
    (s.emit ev).trace = s.trace ++ [ev] := rfl

@[simp] theorem emit_frame (s : State) (ev : Event) :
    (s.emit ev).a = s.a ∧ (s.emit ev).f = s.f ∧ (s.emit ev).b = s.b ∧ (s.emit ev).c = s.c ∧
    (s.emit ev).d = s.d ∧ (s.emit ev).e = s.e ∧ (s.emit ev).h = s.h ∧ (s.emit ev).l = s.l ∧
    (s.emit ev).sp = s.sp ∧ (s.emit ev).pc = s.pc ∧ (s.emit ev).ime = s.ime ∧
    (s.emit ev).total = s.total ∧ (s.emit ev).ifReg = s.ifReg ∧ (s.emit ev).ie = s.ie ∧
    (s.emit ev).lcdc = s.lcdc ∧ (s.emit ev).stat = s.stat ∧ (s.emit ev).scy = s.scy ∧
    (s.emit ev).scx = s.scx ∧ (s.emit ev).ly = s.ly ∧ (s.emit ev).bgp = s.bgp ∧
    (s.emit ev).obp0 = s.obp0 ∧ (s.emit ev).obp1 = s.obp1 ∧ (s.emit ev).wy = s.wy ∧
    (s.emit ev).wx = s.wx ∧ (s.emit ev).mode = s.mode ∧ (s.emit ev).clk = s.clk ∧
    (s.emit ev).mem = s.mem ∧ (s.emit ev).fb = s.fb ∧ (s.emit ev).cost = s.cost ∧
    (s.emit ev).cfg = s.cfg := by and_intros <;> rfl

@[simp] theorem advance_written (s : State) (len : Word) (cost : Byte) :
    (s.advance len cost).pc = s.pc + len ∧ (s.advance len cost).cost = cost := by and_intros <;> rfl

@[simp] theorem advance_frame (s : State) (len : Word) (cost : Byte) :
    (s.advance len cost).a = s.a ∧ (s.advance len cost).f = s.f ∧ (s.advance len cost).b = s.b ∧
    (s.advance len cost).c = s.c ∧ (s.advance len cost).d = s.d ∧ (s.advance len cost).e = s.e ∧
    (s.advance len cost).h = s.h ∧ (s.advance len cost).l = s.l ∧
    (s.advance len cost).sp = s.sp ∧ (s.advance len cost).ime = s.ime ∧
    (s.advance len cost).total = s.total ∧ (s.advance len cost).ifReg = s.ifReg ∧
    (s.advance len cost).ie = s.ie ∧ (s.advance len cost).lcdc = s.lcdc ∧
    (s.advance len cost).stat = s.stat ∧ (s.advance len cost).scy = s.scy ∧
    (s.advance len cost).scx = s.scx ∧ (s.advance len cost).ly = s.ly ∧
    (s.advance len cost).bgp = s.bgp ∧ (s.advance len cost).obp0 = s.obp0 ∧
    (s.advance len cost).obp1 = s.obp1 ∧ (s.advance len cost).wy = s.wy ∧
    (s.advance len cost).wx = s.wx ∧ (s.advance len cost).mode = s.mode ∧
    (s.advance len cost).clk = s.clk ∧ (s.advance len cost).mem = s.mem ∧
    (s.advance len cost).fb = s.fb ∧ (s.advance len cost).trace = s.trace ∧
    (s.advance len cost).cfg = s.cfg := by and_intros <;> rfl

@[simp] theorem jump_written (s : State) (target : Word) (cost : Byte) :
    (s.jump target cost).pc = target ∧ (s.jump target cost).cost = cost := by and_intros <;> rfl

@[simp] theorem jump_frame (s : State) (target : Word) (cost : Byte) :
    (s.jump target cost).a = s.a ∧ (s.jump target cost).f = s.f ∧ (s.jump target cost).b = s.b ∧
    (s.jump target cost).c = s.c ∧ (s.jump target cost).d = s.d ∧ (s.jump target cost).e = s.e ∧
    (s.jump target cost).h = s.h ∧ (s.jump target cost).l = s.l ∧
    (s.jump target cost).sp = s.sp ∧ (s.jump target cost).ime = s.ime ∧
    (s.jump target cost).total = s.total ∧ (s.jump target cost).ifReg = s.ifReg ∧
    (s.jump target cost).ie = s.ie ∧ (s.jump target cost).lcdc = s.lcdc ∧
    (s.jump target cost).stat = s.stat ∧ (s.jump target cost).scy = s.scy ∧
    (s.jump target cost).scx = s.scx ∧ (s.jump target cost).ly = s.ly ∧
    (s.jump target cost).bgp = s.bgp ∧ (s.jump target cost).obp0 = s.obp0 ∧
    (s.jump target cost).obp1 = s.obp1 ∧ (s.jump target cost).wy = s.wy ∧
    (s.jump target cost).wx = s.wx ∧ (s.jump target cost).mode = s.mode ∧
    (s.jump target cost).clk = s.clk ∧ (s.jump target cost).mem = s.mem ∧
    (s.jump target cost).fb = s.fb ∧ (s.jump target cost).trace = s.trace ∧
    (s.jump target cost).cfg = s.cfg := by and_intros <;> rfl

@[simp] theorem watchdogEntry_written (s : State) :
    (watchdogEntry s).pc = restartPc ∧ (watchdogEntry s).ime = true ∧
    (watchdogEntry s).ifReg = 0xFF#8 ∧ (watchdogEntry s).ie = 0xFF#8 ∧
    (watchdogEntry s).lcdc = forcedLcdc s.cfg ∧ (watchdogEntry s).bgp = s.cfg.watchdogBgp ∧
    (watchdogEntry s).cost = watchdogCost := by and_intros <;> rfl

@[simp] theorem watchdogEntry_frame (s : State) :
    (watchdogEntry s).a = s.a ∧ (watchdogEntry s).f = s.f ∧ (watchdogEntry s).b = s.b ∧
    (watchdogEntry s).c = s.c ∧ (watchdogEntry s).d = s.d ∧ (watchdogEntry s).e = s.e ∧
    (watchdogEntry s).h = s.h ∧ (watchdogEntry s).l = s.l ∧ (watchdogEntry s).sp = s.sp ∧
    (watchdogEntry s).total = s.total ∧ (watchdogEntry s).stat = s.stat ∧
    (watchdogEntry s).scy = s.scy ∧ (watchdogEntry s).scx = s.scx ∧ (watchdogEntry s).ly = s.ly ∧
    (watchdogEntry s).obp0 = s.obp0 ∧ (watchdogEntry s).obp1 = s.obp1 ∧
    (watchdogEntry s).wy = s.wy ∧ (watchdogEntry s).wx = s.wx ∧ (watchdogEntry s).mode = s.mode ∧
    (watchdogEntry s).clk = s.clk ∧ (watchdogEntry s).mem = s.mem ∧ (watchdogEntry s).fb = s.fb ∧
    (watchdogEntry s).trace = s.trace ∧ (watchdogEntry s).cfg = s.cfg := by and_intros <;> rfl

@[simp] theorem enterMode_written (m : PpuMode) (s : State) :
    (enterMode m s).clk = 0 ∧ (enterMode m s).mode = m ∧
    (enterMode m s).stat = statMirror s.stat m := by and_intros <;> rfl

@[simp] theorem enterMode_frame (m : PpuMode) (s : State) :
    (enterMode m s).a = s.a ∧ (enterMode m s).f = s.f ∧ (enterMode m s).b = s.b ∧
    (enterMode m s).c = s.c ∧ (enterMode m s).d = s.d ∧ (enterMode m s).e = s.e ∧
    (enterMode m s).h = s.h ∧ (enterMode m s).l = s.l ∧ (enterMode m s).sp = s.sp ∧
    (enterMode m s).pc = s.pc ∧ (enterMode m s).ime = s.ime ∧ (enterMode m s).total = s.total ∧
    (enterMode m s).ifReg = s.ifReg ∧ (enterMode m s).ie = s.ie ∧ (enterMode m s).lcdc = s.lcdc ∧
    (enterMode m s).scy = s.scy ∧ (enterMode m s).scx = s.scx ∧ (enterMode m s).ly = s.ly ∧
    (enterMode m s).bgp = s.bgp ∧ (enterMode m s).obp0 = s.obp0 ∧ (enterMode m s).obp1 = s.obp1 ∧
    (enterMode m s).wy = s.wy ∧ (enterMode m s).wx = s.wx ∧ (enterMode m s).mem = s.mem ∧
    (enterMode m s).fb = s.fb ∧ (enterMode m s).cost = s.cost ∧ (enterMode m s).trace = s.trace ∧
    (enterMode m s).cfg = s.cfg := by and_intros <;> rfl

@[simp] theorem setReg_frame (s : State) (r : Reg) (v : Byte) :
    (s.setReg r v).f = s.f ∧ (s.setReg r v).sp = s.sp ∧ (s.setReg r v).pc = s.pc ∧
    (s.setReg r v).ime = s.ime ∧ (s.setReg r v).total = s.total ∧
    (s.setReg r v).ifReg = s.ifReg ∧ (s.setReg r v).ie = s.ie ∧ (s.setReg r v).lcdc = s.lcdc ∧
    (s.setReg r v).stat = s.stat ∧ (s.setReg r v).scy = s.scy ∧ (s.setReg r v).scx = s.scx ∧
    (s.setReg r v).ly = s.ly ∧ (s.setReg r v).bgp = s.bgp ∧ (s.setReg r v).obp0 = s.obp0 ∧
    (s.setReg r v).obp1 = s.obp1 ∧ (s.setReg r v).wy = s.wy ∧ (s.setReg r v).wx = s.wx ∧
    (s.setReg r v).mode = s.mode ∧ (s.setReg r v).clk = s.clk ∧ (s.setReg r v).mem = s.mem ∧
    (s.setReg r v).fb = s.fb ∧ (s.setReg r v).cost = s.cost ∧ (s.setReg r v).trace = s.trace ∧
    (s.setReg r v).cfg = s.cfg := by cases r <;> and_intros <;> rfl

@[simp] theorem setPair_frame (s : State) (p : Pair) (v : Word) :
    (s.setPair p v).a = s.a ∧ (s.setPair p v).f = s.f ∧ (s.setPair p v).pc = s.pc ∧
    (s.setPair p v).ime = s.ime ∧ (s.setPair p v).total = s.total ∧
    (s.setPair p v).ifReg = s.ifReg ∧ (s.setPair p v).ie = s.ie ∧ (s.setPair p v).lcdc = s.lcdc ∧
    (s.setPair p v).stat = s.stat ∧ (s.setPair p v).scy = s.scy ∧ (s.setPair p v).scx = s.scx ∧
    (s.setPair p v).ly = s.ly ∧ (s.setPair p v).bgp = s.bgp ∧ (s.setPair p v).obp0 = s.obp0 ∧
    (s.setPair p v).obp1 = s.obp1 ∧ (s.setPair p v).wy = s.wy ∧ (s.setPair p v).wx = s.wx ∧
    (s.setPair p v).mode = s.mode ∧ (s.setPair p v).clk = s.clk ∧ (s.setPair p v).mem = s.mem ∧
    (s.setPair p v).fb = s.fb ∧ (s.setPair p v).cost = s.cost ∧ (s.setPair p v).trace = s.trace ∧
    (s.setPair p v).cfg = s.cfg := by cases p <;> and_intros <;> rfl

@[simp] theorem setOverlay_frame (s : State) (reg : Overlay) (v : Byte) :
    (s.setOverlay reg v).a = s.a ∧ (s.setOverlay reg v).f = s.f ∧ (s.setOverlay reg v).b = s.b ∧
    (s.setOverlay reg v).c = s.c ∧ (s.setOverlay reg v).d = s.d ∧ (s.setOverlay reg v).e = s.e ∧
    (s.setOverlay reg v).h = s.h ∧ (s.setOverlay reg v).l = s.l ∧
    (s.setOverlay reg v).sp = s.sp ∧ (s.setOverlay reg v).pc = s.pc ∧
    (s.setOverlay reg v).ime = s.ime ∧ (s.setOverlay reg v).total = s.total ∧
    (s.setOverlay reg v).ie = s.ie ∧ (s.setOverlay reg v).ly = s.ly ∧
    (s.setOverlay reg v).mode = s.mode ∧ (s.setOverlay reg v).clk = s.clk ∧
    (s.setOverlay reg v).mem = s.mem ∧ (s.setOverlay reg v).fb = s.fb ∧
    (s.setOverlay reg v).cost = s.cost ∧ (s.setOverlay reg v).trace = s.trace ∧
    (s.setOverlay reg v).cfg = s.cfg := by cases reg <;> and_intros <;> rfl

@[simp] theorem noteRead_frame (addr : Word) (s : State) :
    (noteRead addr s).a = s.a ∧ (noteRead addr s).f = s.f ∧ (noteRead addr s).b = s.b ∧
    (noteRead addr s).c = s.c ∧ (noteRead addr s).d = s.d ∧ (noteRead addr s).e = s.e ∧
    (noteRead addr s).h = s.h ∧ (noteRead addr s).l = s.l ∧ (noteRead addr s).sp = s.sp ∧
    (noteRead addr s).pc = s.pc ∧ (noteRead addr s).ime = s.ime ∧
    (noteRead addr s).total = s.total ∧ (noteRead addr s).ifReg = s.ifReg ∧
    (noteRead addr s).ie = s.ie ∧ (noteRead addr s).lcdc = s.lcdc ∧
    (noteRead addr s).stat = s.stat ∧ (noteRead addr s).scy = s.scy ∧
    (noteRead addr s).scx = s.scx ∧ (noteRead addr s).ly = s.ly ∧ (noteRead addr s).bgp = s.bgp ∧
    (noteRead addr s).obp0 = s.obp0 ∧ (noteRead addr s).obp1 = s.obp1 ∧
    (noteRead addr s).wy = s.wy ∧ (noteRead addr s).wx = s.wx ∧ (noteRead addr s).mode = s.mode ∧
    (noteRead addr s).clk = s.clk ∧ (noteRead addr s).mem = s.mem ∧ (noteRead addr s).fb = s.fb ∧
    (noteRead addr s).cost = s.cost ∧ (noteRead addr s).cfg = s.cfg := by unfold noteRead; split <;> and_intros <;> rfl

@[simp] theorem memWrite_frame (addr : Word) (v : Byte) (s : State) :
    (memWrite addr v s).a = s.a ∧ (memWrite addr v s).f = s.f ∧ (memWrite addr v s).b = s.b ∧
    (memWrite addr v s).c = s.c ∧ (memWrite addr v s).d = s.d ∧ (memWrite addr v s).e = s.e ∧
    (memWrite addr v s).h = s.h ∧ (memWrite addr v s).l = s.l ∧ (memWrite addr v s).sp = s.sp ∧
    (memWrite addr v s).pc = s.pc ∧ (memWrite addr v s).ime = s.ime ∧
    (memWrite addr v s).total = s.total ∧ (memWrite addr v s).ly = s.ly ∧
    (memWrite addr v s).mode = s.mode ∧ (memWrite addr v s).clk = s.clk ∧
    (memWrite addr v s).fb = s.fb ∧ (memWrite addr v s).cost = s.cost ∧
    (memWrite addr v s).cfg = s.cfg := by
  unfold memWrite
  split <;> simp

@[simp] theorem renderScanline_frame (y : Nat) (s : State) :
    (renderScanline y s).a = s.a ∧ (renderScanline y s).f = s.f ∧ (renderScanline y s).b = s.b ∧
    (renderScanline y s).c = s.c ∧ (renderScanline y s).d = s.d ∧ (renderScanline y s).e = s.e ∧
    (renderScanline y s).h = s.h ∧ (renderScanline y s).l = s.l ∧
    (renderScanline y s).sp = s.sp ∧ (renderScanline y s).pc = s.pc ∧
    (renderScanline y s).ime = s.ime ∧ (renderScanline y s).total = s.total ∧
    (renderScanline y s).ifReg = s.ifReg ∧ (renderScanline y s).ie = s.ie ∧
    (renderScanline y s).lcdc = s.lcdc ∧ (renderScanline y s).stat = s.stat ∧
    (renderScanline y s).scy = s.scy ∧ (renderScanline y s).scx = s.scx ∧
    (renderScanline y s).ly = s.ly ∧ (renderScanline y s).bgp = s.bgp ∧
    (renderScanline y s).obp0 = s.obp0 ∧ (renderScanline y s).obp1 = s.obp1 ∧
    (renderScanline y s).wy = s.wy ∧ (renderScanline y s).wx = s.wx ∧
    (renderScanline y s).mode = s.mode ∧ (renderScanline y s).clk = s.clk ∧
    (renderScanline y s).mem = s.mem ∧ (renderScanline y s).cost = s.cost ∧
    (renderScanline y s).trace = s.trace ∧ (renderScanline y s).cfg = s.cfg := by unfold renderScanline; split <;> and_intros <;> rfl

@[simp] theorem push16_frame (v : Word) (s : State) :
    (push16 v s).a = s.a ∧ (push16 v s).f = s.f ∧ (push16 v s).b = s.b ∧ (push16 v s).c = s.c ∧
    (push16 v s).d = s.d ∧ (push16 v s).e = s.e ∧ (push16 v s).h = s.h ∧ (push16 v s).l = s.l ∧
    (push16 v s).pc = s.pc ∧ (push16 v s).ime = s.ime ∧ (push16 v s).total = s.total ∧
    (push16 v s).ly = s.ly ∧ (push16 v s).mode = s.mode ∧ (push16 v s).clk = s.clk ∧
    (push16 v s).fb = s.fb ∧ (push16 v s).cost = s.cost ∧ (push16 v s).cfg = s.cfg := by
  simp [push16]

@[simp] theorem pop16_frame (s : State) :
    ((pop16 s).2).a = s.a ∧ ((pop16 s).2).f = s.f ∧ ((pop16 s).2).b = s.b ∧
    ((pop16 s).2).c = s.c ∧ ((pop16 s).2).d = s.d ∧ ((pop16 s).2).e = s.e ∧
    ((pop16 s).2).h = s.h ∧ ((pop16 s).2).l = s.l ∧ ((pop16 s).2).pc = s.pc ∧
    ((pop16 s).2).ime = s.ime ∧ ((pop16 s).2).total = s.total ∧ ((pop16 s).2).ifReg = s.ifReg ∧
    ((pop16 s).2).ie = s.ie ∧ ((pop16 s).2).lcdc = s.lcdc ∧ ((pop16 s).2).stat = s.stat ∧
    ((pop16 s).2).scy = s.scy ∧ ((pop16 s).2).scx = s.scx ∧ ((pop16 s).2).ly = s.ly ∧
    ((pop16 s).2).bgp = s.bgp ∧ ((pop16 s).2).obp0 = s.obp0 ∧ ((pop16 s).2).obp1 = s.obp1 ∧
    ((pop16 s).2).wy = s.wy ∧ ((pop16 s).2).wx = s.wx ∧ ((pop16 s).2).mode = s.mode ∧
    ((pop16 s).2).clk = s.clk ∧ ((pop16 s).2).mem = s.mem ∧ ((pop16 s).2).fb = s.fb ∧
    ((pop16 s).2).cost = s.cost ∧ ((pop16 s).2).cfg = s.cfg := by
  simp [pop16, memRead]

@[simp] theorem syncIme_frame (s : State) :
    (syncIme s).a = s.a ∧ (syncIme s).f = s.f ∧ (syncIme s).b = s.b ∧ (syncIme s).c = s.c ∧
    (syncIme s).d = s.d ∧ (syncIme s).e = s.e ∧ (syncIme s).h = s.h ∧ (syncIme s).l = s.l ∧
    (syncIme s).sp = s.sp ∧ (syncIme s).pc = s.pc ∧ (syncIme s).total = s.total ∧
    (syncIme s).ifReg = s.ifReg ∧ (syncIme s).ie = s.ie ∧ (syncIme s).lcdc = s.lcdc ∧
    (syncIme s).stat = s.stat ∧ (syncIme s).scy = s.scy ∧ (syncIme s).scx = s.scx ∧
    (syncIme s).ly = s.ly ∧ (syncIme s).bgp = s.bgp ∧ (syncIme s).obp0 = s.obp0 ∧
    (syncIme s).obp1 = s.obp1 ∧ (syncIme s).wy = s.wy ∧ (syncIme s).wx = s.wx ∧
    (syncIme s).mode = s.mode ∧ (syncIme s).clk = s.clk ∧ (syncIme s).mem = s.mem ∧
    (syncIme s).fb = s.fb ∧ (syncIme s).cost = s.cost ∧ (syncIme s).trace = s.trace ∧
    (syncIme s).cfg = s.cfg := by unfold syncIme; split <;> and_intros <;> rfl

@[simp] theorem autoEnable_frame (s : State) :
    (autoEnable s).a = s.a ∧ (autoEnable s).f = s.f ∧ (autoEnable s).b = s.b ∧
    (autoEnable s).c = s.c ∧ (autoEnable s).d = s.d ∧ (autoEnable s).e = s.e ∧
    (autoEnable s).h = s.h ∧ (autoEnable s).l = s.l ∧ (autoEnable s).sp = s.sp ∧
    (autoEnable s).pc = s.pc ∧ (autoEnable s).total = s.total ∧ (autoEnable s).ifReg = s.ifReg ∧
    (autoEnable s).ie = s.ie ∧ (autoEnable s).lcdc = s.lcdc ∧ (autoEnable s).stat = s.stat ∧
    (autoEnable s).scy = s.scy ∧ (autoEnable s).scx = s.scx ∧ (autoEnable s).ly = s.ly ∧
    (autoEnable s).bgp = s.bgp ∧ (autoEnable s).obp0 = s.obp0 ∧ (autoEnable s).obp1 = s.obp1 ∧
    (autoEnable s).wy = s.wy ∧ (autoEnable s).wx = s.wx ∧ (autoEnable s).mode = s.mode ∧
    (autoEnable s).clk = s.clk ∧ (autoEnable s).mem = s.mem ∧ (autoEnable s).fb = s.fb ∧
    (autoEnable s).cost = s.cost ∧ (autoEnable s).trace = s.trace ∧ (autoEnable s).cfg = s.cfg := by unfold autoEnable; split <;> and_intros <;> rfl

/-- The `ime` synchronisation as one update (R144). -/
theorem syncIme_eq (s : State) :
    syncIme s = { s with ime := s.ime || decide (s.ifReg &&& s.ie ≠ 0#8) } := by
  unfold syncIme
  by_cases h : s.ifReg &&& s.ie = 0#8 <;> simp [h]

/-- The auto-enable as one update (R148). -/
theorem autoEnable_eq (s : State) :
    autoEnable s = { s with ime := s.ime || decide (s.cfg.autoImeThreshold < s.total) } := by
  unfold autoEnable
  cases hi : s.ime
  · by_cases h : s.cfg.autoImeThreshold < s.total <;> simp [h, ← hi]
  · simp [← hi]

/-- Steps 5 and 6 after an instruction, as one update before the engine is driven (R148, R149). -/
theorem finishCycle_eq (s : State) :
    finishCycle s = advanceRendering s.cost.toNat
      { s with
        ime := s.ime || decide (s.cfg.autoImeThreshold < s.total), total := s.total + s.cost.toNat } := by
  unfold finishCycle account
  rw [autoEnable_eq]

@[simp] theorem push16_sp (v : Word) (s : State) : (push16 v s).sp = s.sp - 2#16 := rfl

@[simp] theorem pop16_sp (s : State) : (pop16 s).2.sp = s.sp + 2#16 := by simp [pop16, memRead]

@[simp] theorem getReg_setReg_same (s : State) (r : Reg) (v : Byte) : (s.setReg r v).getReg r = v := by
  cases r <;> rfl

theorem getReg_setReg_other (s : State) (r q : Reg) (v : Byte) (h : q ≠ r) :
    (s.setReg r v).getReg q = s.getReg q := by
  cases r <;> cases q <;> first | rfl | exact absurd rfl h

@[simp] theorem highByte_wordOfBytes (hi lo : Byte) : highByte (wordOfBytes hi lo) = hi := by
  unfold highByte wordOfBytes
  apply BitVec.eq_of_getLsbD_eq
  intro i hi
  rw [BitVec.getLsbD_extractLsb', BitVec.getLsbD_append]
  simp; intro h; omega

@[simp] theorem lowByte_wordOfBytes (hi lo : Byte) : lowByte (wordOfBytes hi lo) = lo := by
  unfold lowByte wordOfBytes
  apply BitVec.eq_of_getLsbD_eq
  intro i hi
  rw [BitVec.getLsbD_extractLsb', BitVec.getLsbD_append]
  simp; simp [hi]

@[simp] theorem wordOfBytes_bytes (v : Word) : wordOfBytes (highByte v) (lowByte v) = v := by
  unfold highByte lowByte wordOfBytes
  apply BitVec.eq_of_getLsbD_eq
  intro i hi
  rw [BitVec.getLsbD_append]
  by_cases h : i < 8
  · simp [h]
  · simp [h, show i - 8 < 8 by omega, show 8 + (i - 8) = i by omega]

@[simp] theorem getPair_setPair_same (s : State) (p : Pair) (v : Word) : (s.setPair p v).getPair p = v := by
  cases p <;> simp [State.setPair, State.getPair]

end Sys2Proof.Machine
end

