-- ==== Sys2Proof/Laws/Bus.lean ====
section
/-! SUPPORT. The laws of the bus: what a read depends on, what a write changes, and that every memory
operation keeps the canonical form. -/

namespace Sys2Proof.Machine

theorem Overlay.mem_all (reg : Overlay) : reg ∈ Overlay.all := by cases reg <;> decide

theorem Overlay.at_some {addr : Nat} {reg : Overlay} (h : Overlay.at addr = some reg) : reg.addr = addr := by
  simpa using List.find?_some h

theorem Overlay.at_addr (reg : Overlay) : Overlay.at reg.addr = some reg := by cases reg <;> decide

/-- Only the address of an overlay register decodes to it (R75). -/
theorem Region.of_overlay {addr : Word} {reg : Overlay} (h : Region.of addr = .overlay reg) :
    reg.addr = addr.toNat := by
  unfold Region.of Region.ofNat at h
  repeat' split at h
  all_goals first | exact Region.noConfusion h | skip
  injection h with h
  exact h ▸ Overlay.at_some ‹_›

/-- Only the top address decodes to IE (R71). -/
theorem Region.of_interruptEnable {addr : Word} (h : Region.of addr = .interruptEnable) :
    addr.toNat = ieAddr := by
  unfold Region.of Region.ofNat at h
  repeat' split at h
  all_goals first | exact Region.noConfusion h | skip
  have := addr.isLt
  simp only [ieAddr] at *
  omega

/-- The parts of the state that a bus read looks at. -/
structure BusAgree (s t : State) : Prop where
  mem : t.mem = s.mem
  romLen : t.cfg.romLen = s.cfg.romLen
  interruptEnable : t.ie = s.ie
  overlay : ∀ reg, t.getOverlay reg = s.getOverlay reg

theorem BusAgree.rfl' (s : State) : BusAgree s s := ⟨rfl, rfl, rfl, fun _ => rfl⟩

theorem BusAgree.trans {s t u : State} (h : BusAgree s t) (h' : BusAgree t u) : BusAgree s u :=
  ⟨h'.mem.trans h.mem, h'.romLen.trans h.romLen, h'.interruptEnable.trans h.interruptEnable,
    fun reg => (h'.overlay reg).trans (h.overlay reg)⟩

theorem BusAgree.busRead {s t : State} (h : BusAgree s t) (addr : Word) : busRead addr t = busRead addr s := by
  unfold Machine.busRead
  rw [h.mem, h.romLen, h.interruptEnable]
  split <;> simp [h.overlay]

theorem BusAgree.readMisses {s t : State} (h : BusAgree s t) (addr : Word) :
    readMisses addr t = readMisses addr s := by
  unfold Machine.readMisses
  rw [h.romLen]

theorem BusAgree.sameReads {s t : State} (h : BusAgree s t) : SameReads s t := h.busRead

theorem getOverlay_emit (s : State) (ev : Event) (reg : Overlay) :
    (s.emit ev).getOverlay reg = s.getOverlay reg := by cases reg <;> rfl

theorem busAgree_emit (s : State) (ev : Event) : BusAgree s (s.emit ev) :=
  ⟨rfl, rfl, rfl, getOverlay_emit s ev⟩

/-- A bus read leaves the bus as it is (R76). -/
theorem busAgree_noteRead (addr : Word) (s : State) : BusAgree s (noteRead addr s) := by
  unfold noteRead
  split
  · exact busAgree_emit s _
  · exact BusAgree.rfl' s

theorem busAgree_noteReads (pc : Word) (n : Nat) (s : State) : BusAgree s (noteReads pc n s) := by
  induction n with
  | zero => exact BusAgree.rfl' s
  | succ k ih => exact ih.trans (busAgree_noteRead _ _)

/-- The reads of a fetch change nothing but the trace, and only add to it (R76, R80). -/
theorem noteReads_appends (pc : Word) (n : Nat) (s : State) :
    ∃ events, noteReads pc n s = { s with trace := s.trace ++ events } := by
  induction n with
  | zero => exact ⟨[], by simp [noteReads]⟩
  | succ k ih =>
    obtain ⟨events, h⟩ := ih
    rw [noteReads, h]
    unfold noteRead
    split
    · exact ⟨events ++ [.unmappedRead (byteAddr pc k)], by simp [State.emit]⟩
    · exact ⟨events, rfl⟩

/-- Fetching changes nothing but the trace, and only adds to it. -/
theorem fetched_appends (s : State) : ∃ events, fetched s = { s with trace := s.trace ++ events } :=
  noteReads_appends _ _ _

theorem busAgree_advance (s : State) (len : Word) (cost : Byte) : BusAgree s (s.advance len cost) :=
  ⟨rfl, rfl, rfl, fun reg => by cases reg <;> rfl⟩

theorem busAgree_jump (s : State) (target : Word) (cost : Byte) : BusAgree s (s.jump target cost) :=
  ⟨rfl, rfl, rfl, fun reg => by cases reg <;> rfl⟩

theorem busAgree_setReg (s : State) (r : Reg) (v : Byte) : BusAgree s (s.setReg r v) :=
  ⟨by simp, by simp, by simp, fun reg => by cases reg <;> simp [State.getOverlay]⟩

theorem busAgree_setPair (s : State) (p : Pair) (v : Word) : BusAgree s (s.setPair p v) :=
  ⟨by simp, by simp, by simp, fun reg => by cases reg <;> simp [State.getOverlay]⟩

theorem busAgree_syncIme (s : State) : BusAgree s (syncIme s) :=
  ⟨by simp, by simp, by simp, fun reg => by cases reg <;> simp [State.getOverlay]⟩

theorem busAgree_pop16 (s : State) : BusAgree s (pop16 s).2 :=
  ⟨by simp, by simp, by simp [pop16, memRead, noteRead]; split <;> split <;> rfl,
    fun reg => by cases reg <;> simp [State.getOverlay]⟩

/-- What a pop reads and where it leaves the pointer (R160). -/
theorem pop16_value (s : State) : (pop16 s).1 = wordOfBytes (busRead (s.sp + 1#16) s) (busRead s.sp s) := by
  simp [pop16, memRead, (busAgree_noteRead s.sp s).busRead]

/-- A write to plain storage reads back (R73). -/
theorem busRead_memWrite_ram (addr : Word) (v : Byte) (s : State) (hwf : s.mem.wf)
    (h : (Region.of addr).isRam = true) : busRead addr (memWrite addr v s) = v := by
  unfold busRead memWrite
  cases hr : Region.of addr <;> simp [hr, Region.isRam] at h ⊢ <;> exact Memory.get_set_same _ _ _ hwf

/-- A write leaves every other overlay register alone (R77). -/
theorem getOverlay_setOverlay_other (s : State) (reg q : Overlay) (v : Byte) (h : q ≠ reg) :
    (s.setOverlay reg v).getOverlay q = s.getOverlay q := by
  cases reg <;> cases q <;> first | rfl | exact absurd rfl h

theorem setOverlay_mem (s : State) (reg : Overlay) (v : Byte) :
    (s.setOverlay reg v).mem = s.mem ∧ (s.setOverlay reg v).ie = s.ie := by
  cases reg <;> exact ⟨rfl, rfl⟩

/-- A write changes what no other address reads (R77). -/
theorem busRead_memWrite_other (addr x : Word) (v : Byte) (s : State) (hx : x ≠ addr) :
    busRead x (memWrite addr v s) = busRead x s := by
  have hnat : x.toNat ≠ addr.toNat := fun h => hx (BitVec.eq_of_toNat_eq h)
  unfold memWrite
  cases hr : Region.of addr with
  | rom => rfl
  | vram | wram | oam | io | hram =>
    unfold busRead
    cases hq : Region.of x with
    | overlay reg => cases reg <;> rfl
    | interruptEnable => rfl
    | unmapped => rfl
    | _ => simp [Memory.get_set_other _ _ _ _ hnat]
  | overlay reg =>
    unfold busRead
    cases hq : Region.of x with
    | overlay q =>
      refine getOverlay_setOverlay_other s reg q v fun he => hnat ?_
      rw [← Region.of_overlay hq, ← Region.of_overlay hr, he]
    | interruptEnable => exact (setOverlay_mem s reg v).2
    | _ => simp
  | interruptEnable =>
    unfold busRead
    cases hq : Region.of x with
    | overlay q => cases q <;> rfl
    | interruptEnable =>
      exact absurd (by rw [Region.of_interruptEnable hq, Region.of_interruptEnable hr]) hnat
    | _ => rfl
  | unmapped => exact (busAgree_emit s _).busRead x

/-- Every bus write keeps the canonical form. -/
theorem memWrite_wf (addr : Word) (v : Byte) (s : State) (h : s.mem.wf) : (memWrite addr v s).mem.wf := by
  unfold memWrite
  split
  case h_1 => exact h
  case h_7 => exact (setOverlay_mem s _ v).1 ▸ h
  case h_8 => exact h
  case h_9 => exact h
  all_goals exact Memory.wf_set _ _ _ h addr.isLt

theorem push16_wf (v : Word) (s : State) (h : s.mem.wf) : (push16 v s).mem.wf :=
  memWrite_wf _ _ _ (memWrite_wf _ _ _ h)

/-- A push changes what no address but the two below the pointer reads (R160). -/
theorem busRead_push16_other (v : Word) (s : State) (x : Word) (h1 : x ≠ s.sp - 1#16) (h2 : x ≠ s.sp - 2#16) :
    busRead x (push16 v s) = busRead x s := by
  have hset : ∀ t : State, BusAgree t { t with sp := s.sp - 2#16 } := fun t =>
    ⟨rfl, rfl, rfl, fun reg => by cases reg <;> rfl⟩
  unfold push16
  rw [(hset _).busRead, busRead_memWrite_other _ _ _ _ h2, busRead_memWrite_other _ _ _ _ h1]

/-- Every bus write keeps the STAT mirror (R33, D25). -/
theorem memWrite_stat (addr : Word) (v : Byte) (s : State) :
    (memWrite addr v s).stat &&& 0x03#8 = s.stat &&& 0x03#8 := by
  have key : statWrite s.stat v &&& 0x03#8 = s.stat &&& 0x03#8 := by
    apply BitVec.eq_of_getLsbD_eq
    intro i hi
    simp only [statWrite, BitVec.getLsbD_and, BitVec.getLsbD_or]
    have : i = 0 ∨ i = 1 ∨ i = 2 ∨ i = 3 ∨ i = 4 ∨ i = 5 ∨ i = 6 ∨ i = 7 := by omega
    rcases this with rfl | rfl | rfl | rfl | rfl | rfl | rfl | rfl <;> simp
  unfold memWrite
  cases hr : Region.of addr with
  | overlay reg => cases reg <;> first | exact key | rfl
  | _ => rfl

end Sys2Proof.Machine
end

