-- ==== Sys2Proof/Laws/Decode.lean ====
section
/-! SUPPORT. The laws of the decoder: its three list forms, and the fallback bytes. -/

namespace Sys2Proof

theorem decode_alone {op : Byte} (rest : List Byte) (h : operandBytes op = 0) :
    decode (op :: rest) = .ok (decodeBytes op 0#8 0#8, rest) := by
  simp only [decode, h]

theorem decode_with_one {op : Byte} (b1 : Byte) (rest : List Byte) (h : operandBytes op = 1) :
    decode (op :: b1 :: rest) = .ok (decodeBytes op b1 0#8, rest) := by
  simp only [decode, h]

theorem decode_with_two {op : Byte} (b1 b2 : Byte) (rest : List Byte) (h : operandBytes op = 2) :
    decode (op :: b1 :: b2 :: rest) = .ok (decodeBytes op b1 b2, rest) := by
  simp only [decode, h]

/-- An unknown opcode byte is one byte long and decodes to the fallback row (R222). -/
theorem decodeBytes_unknown (op : Byte) (h : isUnknownOpcode op = true) :
    operandBytes op = 0 ∧ decodeBytes op 0#8 0#8 = .unknownOpcode op := by
  revert op; decide

/-- An unknown second byte decodes to its fallback row (R223). -/
theorem decodeEscaped_unknown (op2 : Byte) (h : isUnknownEscapedOpcode op2 = true) :
    decodeEscaped op2 = .unknownEscapedOpcode op2 := by
  revert op2; decide

/-- A second byte has a RES row exactly when it names a bit and a register (R203). -/
theorem isResByte_eq (op2 : Byte) : isResByte op2 = (resOperands op2).isSome := by
  revert op2; decide

end Sys2Proof
end

