-- ==== Sys2Proof/Laws/Ppu.lean ====
section
/-! SUPPORT. What the mode machine and the compositor can do, said once: a call of `advance` counts, or
makes one transition, and either way leaves everything but the engine's own fields. -/

namespace Sys2Proof.Machine

/-- What an advance of the engine may change (R149): only `mode`, `clk`, `ly`, `stat` and `fb`. -/
def EngineFrame (s t : State) : Prop :=
  t = { s with mode := t.mode, clk := t.clk, ly := t.ly, stat := t.stat, fb := t.fb }

theorem EngineFrame.trans {s t u : State} (h : EngineFrame s t) (h' : EngineFrame t u) : EngineFrame s u := by
  unfold EngineFrame at h
  exact Eq.trans (show u = _ from h') (by rw [h])

theorem EngineFrame.of_enterMode (m : PpuMode) (s : State) : EngineFrame s (enterMode m s) := rfl

theorem EngineFrame.of_renderScanline (y : Nat) (s : State) : EngineFrame s (renderScanline y s) := by
  unfold EngineFrame renderScanline
  split <;> rfl

/-- A transition leaves everything but the engine's fields. -/
theorem EngineFrame.of_transition (s : State) : EngineFrame s (transition s) := by
  have line : ∀ ly, EngineFrame s { s with ly := ly } := fun _ => rfl
  unfold transition
  split
  · exact .of_enterMode _ s
  · exact (EngineFrame.of_enterMode .hblank s).trans (.of_renderScanline _ _)
  · unfold leaveHblank
    dsimp only
    split <;> exact (line _).trans (.of_enterMode _ _)
  · unfold leaveVblankLine
    dsimp only
    split <;> exact (line _).trans (.of_enterMode _ _)

/-- `advance(c)` leaves everything but the engine's fields. -/
theorem EngineFrame.of_advanceClock (c : Nat) (s : State) : EngineFrame s (advanceClock c s) := by
  have counted : EngineFrame s { s with clk := s.clk + c } := rfl
  unfold advanceClock
  dsimp only
  split
  · exact counted.trans (.of_transition _)
  · exact counted

/-- `advance_rendering(c)` leaves everything but the engine's fields and IF (R241). -/
theorem advanceRendering_frame (c : Nat) (s : State) :
    advanceRendering c s =
      { s with
        mode := (advanceRendering c s).mode, clk := (advanceRendering c s).clk
        ly := (advanceRendering c s).ly, stat := (advanceRendering c s).stat
        fb := (advanceRendering c s).fb, ifReg := (advanceRendering c s).ifReg } := by
  have h := EngineFrame.of_advanceClock c s
  unfold EngineFrame at h
  unfold advanceRendering
  dsimp only
  generalize advanceClock c s = t at *
  split <;> rw [h]

theorem advanceRendering_of_frameComplete {c : Nat} {s : State} (h : frameComplete c s = true) :
    advanceRendering c s =
      { advanceClock c s with ifReg := requestVblank (advanceClock c s).ifReg } := by
  simp [advanceRendering, h]

theorem advanceRendering_of_not_frameComplete {c : Nat} {s : State} (h : frameComplete c s = false) :
    advanceRendering c s = advanceClock c s := by
  simp [advanceRendering, h]

/-- The two low bits of STAT after a transition are the mode's number (R236). -/
theorem statMirror_low (old : Byte) (m : PpuMode) : statMirror old m &&& 0x03#8 = m.num := by
  unfold statMirror
  have h : old &&& 0xFC#8 &&& 0x03#8 = 0#8 := by rw [BitVec.and_assoc]; simp
  rw [BitVec.and_or_distrib_right, h]
  cases m <;> decide

/-- STAT's other bits survive a transition (R236). -/
theorem statMirror_high (old : Byte) (m : PpuMode) (k : Nat) (hk : 2 ≤ k) :
    (statMirror old m).getLsbD k = old.getLsbD k := by
  by_cases h8 : k < 8
  · have : k = 2 ∨ k = 3 ∨ k = 4 ∨ k = 5 ∨ k = 6 ∨ k = 7 := by omega
    rcases this with rfl | rfl | rfl | rfl | rfl | rfl <;> cases m <;> simp [statMirror, PpuMode.num]
  · simp [BitVec.getLsbD_of_ge _ k (by omega : 8 ≤ k)]

/-- Entry `x` of a row made from a function of the column. -/
@[simp] theorem rowOf_get (pixelAt : Nat → Shade) (x : Nat) (hx : x < 160) :
    (rowOf pixelAt)[x] = pixelAt x := by
  simp [rowOf]

/-- The rendered row. -/
theorem renderScanline_row (y : Nat) (s : State) (hy : y < 144) :
    (renderScanline y s).fb[y] = s.renderRow y := by
  simp [renderScanline, hy]

/-- Every other row stays. -/
theorem renderScanline_other (y k : Nat) (s : State) (hk : k < 144) (h : k ≠ y) :
    (renderScanline y s).fb[k] = s.fb[k] := by
  unfold renderScanline
  split
  · exact Vector.getElem_set_ne ‹_› hk (Ne.symm h)
  · rfl

/-- Entry `x` of the rendered row. -/
theorem renderScanline_entry (y x : Nat) (s : State) (hy : y < 144) (hx : x < 160) :
    (renderScanline y s).fb[y][x] = s.pixel (s.sortedSprites y) x y := by
  rw [renderScanline_row y s hy]
  exact rowOf_get _ x hx

/-- Insertion keeps the elements. -/
theorem insertByKey_perm (key : Nat → Nat) (i : Nat) (l : List Nat) : (insertByKey key i l).Perm (i :: l) := by
  induction l with
  | nil => exact .refl _
  | cons j rest ih =>
    unfold insertByKey
    split
    · exact .refl _
    · exact (ih.cons j).trans (.swap i j rest)

/-- The sort keeps the elements. -/
theorem sortByKey_perm (key : Nat → Nat) (l : List Nat) : (sortByKey key l).Perm l := by
  induction l with
  | nil => exact .refl _
  | cons i rest ih => exact (insertByKey_perm key i _).trans (ih.cons i)

end Sys2Proof.Machine
end

