-- ==== Sys2Proof/Laws/Exec.lean ====
section
/-! SUPPORT. What an instruction can do, said once: if `exec` answers a next state, it has one of a few
forms over the shared operations, and each form leaves what no instruction reaches. -/

namespace Sys2Proof.Machine

/-- The forms an instruction's effect takes. -/
inductive ExecForm : State → State → Prop where
  /-- NOP, and a conditional instruction that is not taken. -/
  | skip (s : State) (len : Word) (cost : Byte) : ExecForm s (s.advance len cost)
  /-- JP, and a relative jump that is taken. -/
  | jump (s : State) (target : Word) (cost : Byte) : ExecForm s (s.jump target cost)
  /-- A register is written. -/
  | reg (s : State) (r : Reg) (v : Byte) (len : Word) (cost : Byte) :
      ExecForm s ((s.setReg r v).advance len cost)
  /-- A pair or SP is written. -/
  | pair (s : State) (p : Pair) (v : Word) (len : Word) (cost : Byte) :
      ExecForm s ((s.setPair p v).advance len cost)
  /-- CP and XOR A. -/
  | flags (s : State) (a f : Byte) (len : Word) (cost : Byte) (low : f &&& 0x0F#8 = 0#8) :
      ExecForm s ({ s with a := a, f := f }.advance len cost)
  /-- A store. -/
  | store (s : State) (addr len : Word) (cost : Byte) : ExecForm s (storeA addr len cost s)
  /-- A load. -/
  | load (s : State) (addr len : Word) (cost : Byte) : ExecForm s (loadA addr len cost s)
  /-- CALL and RST. -/
  | push (s : State) (v target : Word) (cost : Byte) : ExecForm s ((push16 v s).jump target cost)
  /-- RET and a taken RET NZ. -/
  | pop (s : State) (cost : Byte) : ExecForm s (returnFromStack cost s)
  /-- DI. -/
  | disable (s : State) (len : Word) (cost : Byte) : ExecForm s ({ s with ime := false }.advance len cost)
  /-- The unknown paths. -/
  | event (s : State) (ev : Event) (len : Word) (cost : Byte) : ExecForm s ((s.emit ev).advance len cost)
  /-- The prefix row, which reads its second byte first. -/
  | afterRead (s t : State) (addr : Word) (h : ExecForm (noteRead addr s) t) : ExecForm s t

theorem compareFlags_low (x y : Byte) : compareFlags x y &&& 0x0F#8 = 0#8 := by
  unfold compareFlags
  split <;> decide

theorem jumpRelativeIf_form (taken : Bool) (e : Byte) (s : State) : ExecForm s (jumpRelativeIf taken e s) := by
  unfold jumpRelativeIf
  split
  · exact .jump s _ _
  · exact .skip s _ _

theorem runEscaped_form (op2 : Byte) (s : State) : ExecForm s (runEscaped op2 s) := by
  unfold runEscaped
  split
  · exact .reg s _ _ _ _
  · exact .event s _ _ _

/-- If an instruction answers next, its effect has one of the forms. -/
theorem exec_form {i : Instr} {s t : State} (h : exec i s = .next t) : ExecForm s t := by
  cases i <;> injection h with h <;> subst h <;>
    first
      | exact .reg s _ _ _ _
      | exact .pair s _ _ _ _
      | exact .skip s _ _
      | exact .jump s _ _
      | exact jumpRelativeIf_form _ _ s
      | exact .store s _ _ _
      | exact .load s _ _ _
      | exact .push s _ _ _
      | exact .disable s _ _
      | exact .event s _ _ _
      | exact .flags s _ _ _ _ (compareFlags_low _ _)
      | exact .flags s _ _ _ _ (by decide)
      | exact .pop s _
      | exact .afterRead s _ _ (runEscaped_form _ _)
      | (split
         · exact .pop s _
         · exact .skip s _ _)

/-- No instruction's own effect reaches the cycle counter, the mode machine, the frame buffer or the
parameters. -/
theorem ExecForm.engine {s t : State} (h : ExecForm s t) :
    t.total = s.total ∧ t.mode = s.mode ∧ t.clk = s.clk ∧ t.ly = s.ly ∧ t.fb = s.fb ∧ t.cfg = s.cfg := by
  induction h with
  | afterRead s t addr _ ih => simpa using ih
  | store => simp [storeA]
  | load => simp [loadA, memRead]
  | pop => simp [returnFromStack]
  | _ => simp

/-- No instruction's own effect reaches STAT's low bits (R33). -/
theorem ExecForm.stat {s t : State} (h : ExecForm s t) : t.stat &&& 0x03#8 = s.stat &&& 0x03#8 := by
  induction h with
  | afterRead s t addr _ ih => simpa using ih
  | store => simp [storeA, memWrite_stat]
  | load => simp [loadA, memRead]
  | pop => simp [returnFromStack]
  | push => simp [push16, memWrite_stat]
  | _ => simp

/-- Every instruction keeps the canonical form of the stored bytes. -/
theorem ExecForm.mem_wf {s t : State} (h : ExecForm s t) (hwf : s.mem.wf) : t.mem.wf := by
  induction h with
  | afterRead s t addr _ ih => exact ih (by simpa using hwf)
  | store => simpa [storeA] using memWrite_wf _ _ _ hwf
  | load => simpa [loadA, memRead] using hwf
  | pop => simpa [returnFromStack] using hwf
  | push => simpa using push16_wf _ _ hwf
  | _ => simpa using hwf

/-- Every instruction keeps the low nibble of F at zero (R23). -/
theorem ExecForm.flagNibble {s t : State} (h : ExecForm s t) (hf : s.FlagInv) : t.FlagInv := by
  unfold State.FlagInv at *
  induction h with
  | afterRead s t addr _ ih => exact ih (by simpa using hf)
  | flags s a f len cost low => simpa using low
  | store => simpa [storeA] using hf
  | load => simpa [loadA, memRead] using hf
  | pop => simpa [returnFromStack] using hf
  | _ => simpa using hf

end Sys2Proof.Machine
end

