-- ==== Sys2Proof/Laws/PerInstr.lean ====
section
/-! SUPPORT. Statements for all instructions, one lemma per constructor. -/

namespace Sys2Proof.Laws.EncodedLength

/-- The encoder gives one to three bytes, and no more than the instruction's length (R110); the prefix
row, whose second byte selects the instruction, is the one that gives fewer. -/
def Statement (i : Instr) : Prop :=
  1 ≤ (encode i).length ∧ (encode i).length ≤ i.length ∧ i.length ≤ 3 ∧
    (i ≠ .escapePrefix → (encode i).length = i.length)

theorem nop : Statement .nop := ⟨by decide, by decide, by decide, fun _ => rfl⟩
theorem ldBcNn (nn : Word) : Statement (.ldBcNn nn) :=
  ⟨by simp [encode], by simp [encode, Instr.length], by simp [Instr.length], fun _ => rfl⟩
theorem ldDeNn (nn : Word) : Statement (.ldDeNn nn) :=
  ⟨by simp [encode], by simp [encode, Instr.length], by simp [Instr.length], fun _ => rfl⟩
theorem ldHlNn (nn : Word) : Statement (.ldHlNn nn) :=
  ⟨by simp [encode], by simp [encode, Instr.length], by simp [Instr.length], fun _ => rfl⟩
theorem ldSpNn (nn : Word) : Statement (.ldSpNn nn) :=
  ⟨by simp [encode], by simp [encode, Instr.length], by simp [Instr.length], fun _ => rfl⟩
theorem incBc : Statement .incBc := ⟨by decide, by decide, by decide, fun _ => rfl⟩
theorem incDe : Statement .incDe := ⟨by decide, by decide, by decide, fun _ => rfl⟩
theorem incHl : Statement .incHl := ⟨by decide, by decide, by decide, fun _ => rfl⟩
theorem incSp : Statement .incSp := ⟨by decide, by decide, by decide, fun _ => rfl⟩
theorem ldBN (n : Byte) : Statement (.ldBN n) :=
  ⟨by simp [encode], by simp [encode, Instr.length], by simp [Instr.length], fun _ => rfl⟩
theorem ldCN (n : Byte) : Statement (.ldCN n) :=
  ⟨by simp [encode], by simp [encode, Instr.length], by simp [Instr.length], fun _ => rfl⟩
theorem ldDN (n : Byte) : Statement (.ldDN n) :=
  ⟨by simp [encode], by simp [encode, Instr.length], by simp [Instr.length], fun _ => rfl⟩
theorem ldEN (n : Byte) : Statement (.ldEN n) :=
  ⟨by simp [encode], by simp [encode, Instr.length], by simp [Instr.length], fun _ => rfl⟩
theorem ldHN (n : Byte) : Statement (.ldHN n) :=
  ⟨by simp [encode], by simp [encode, Instr.length], by simp [Instr.length], fun _ => rfl⟩
theorem ldLN (n : Byte) : Statement (.ldLN n) :=
  ⟨by simp [encode], by simp [encode, Instr.length], by simp [Instr.length], fun _ => rfl⟩
theorem ldAN (n : Byte) : Statement (.ldAN n) :=
  ⟨by simp [encode], by simp [encode, Instr.length], by simp [Instr.length], fun _ => rfl⟩
theorem jrN (e : Byte) : Statement (.jrN e) :=
  ⟨by simp [encode], by simp [encode, Instr.length], by simp [Instr.length], fun _ => rfl⟩
theorem jrNzN (e : Byte) : Statement (.jrNzN e) :=
  ⟨by simp [encode], by simp [encode, Instr.length], by simp [Instr.length], fun _ => rfl⟩
theorem jrZN (e : Byte) : Statement (.jrZN e) :=
  ⟨by simp [encode], by simp [encode, Instr.length], by simp [Instr.length], fun _ => rfl⟩
theorem ldBB : Statement .ldBB := ⟨by decide, by decide, by decide, fun _ => rfl⟩
theorem ldBC : Statement .ldBC := ⟨by decide, by decide, by decide, fun _ => rfl⟩
theorem ldBD : Statement .ldBD := ⟨by decide, by decide, by decide, fun _ => rfl⟩
theorem ldBE : Statement .ldBE := ⟨by decide, by decide, by decide, fun _ => rfl⟩
theorem ldBH : Statement .ldBH := ⟨by decide, by decide, by decide, fun _ => rfl⟩
theorem ldBL : Statement .ldBL := ⟨by decide, by decide, by decide, fun _ => rfl⟩
theorem ldBA : Statement .ldBA := ⟨by decide, by decide, by decide, fun _ => rfl⟩
theorem ldCB : Statement .ldCB := ⟨by decide, by decide, by decide, fun _ => rfl⟩
theorem ldCC : Statement .ldCC := ⟨by decide, by decide, by decide, fun _ => rfl⟩
theorem ldCD : Statement .ldCD := ⟨by decide, by decide, by decide, fun _ => rfl⟩
theorem ldCE : Statement .ldCE := ⟨by decide, by decide, by decide, fun _ => rfl⟩
theorem ldCH : Statement .ldCH := ⟨by decide, by decide, by decide, fun _ => rfl⟩
theorem ldCL : Statement .ldCL := ⟨by decide, by decide, by decide, fun _ => rfl⟩
theorem ldCA : Statement .ldCA := ⟨by decide, by decide, by decide, fun _ => rfl⟩
theorem ldDB : Statement .ldDB := ⟨by decide, by decide, by decide, fun _ => rfl⟩
theorem ldDC : Statement .ldDC := ⟨by decide, by decide, by decide, fun _ => rfl⟩
theorem ldDD : Statement .ldDD := ⟨by decide, by decide, by decide, fun _ => rfl⟩
theorem ldDE : Statement .ldDE := ⟨by decide, by decide, by decide, fun _ => rfl⟩
theorem ldDH : Statement .ldDH := ⟨by decide, by decide, by decide, fun _ => rfl⟩
theorem ldDL : Statement .ldDL := ⟨by decide, by decide, by decide, fun _ => rfl⟩
theorem ldDA : Statement .ldDA := ⟨by decide, by decide, by decide, fun _ => rfl⟩
theorem ldEB : Statement .ldEB := ⟨by decide, by decide, by decide, fun _ => rfl⟩
theorem ldEC : Statement .ldEC := ⟨by decide, by decide, by decide, fun _ => rfl⟩
theorem ldED : Statement .ldED := ⟨by decide, by decide, by decide, fun _ => rfl⟩
theorem ldEE : Statement .ldEE := ⟨by decide, by decide, by decide, fun _ => rfl⟩
theorem ldEH : Statement .ldEH := ⟨by decide, by decide, by decide, fun _ => rfl⟩
theorem ldEL : Statement .ldEL := ⟨by decide, by decide, by decide, fun _ => rfl⟩
theorem ldEA : Statement .ldEA := ⟨by decide, by decide, by decide, fun _ => rfl⟩
theorem ldHB : Statement .ldHB := ⟨by decide, by decide, by decide, fun _ => rfl⟩
theorem ldHC : Statement .ldHC := ⟨by decide, by decide, by decide, fun _ => rfl⟩
theorem ldHD : Statement .ldHD := ⟨by decide, by decide, by decide, fun _ => rfl⟩
theorem ldHE : Statement .ldHE := ⟨by decide, by decide, by decide, fun _ => rfl⟩
theorem ldHH : Statement .ldHH := ⟨by decide, by decide, by decide, fun _ => rfl⟩
theorem ldHL : Statement .ldHL := ⟨by decide, by decide, by decide, fun _ => rfl⟩
theorem ldHA : Statement .ldHA := ⟨by decide, by decide, by decide, fun _ => rfl⟩
theorem ldLB : Statement .ldLB := ⟨by decide, by decide, by decide, fun _ => rfl⟩
theorem ldLC : Statement .ldLC := ⟨by decide, by decide, by decide, fun _ => rfl⟩
theorem ldLD : Statement .ldLD := ⟨by decide, by decide, by decide, fun _ => rfl⟩
theorem ldLE : Statement .ldLE := ⟨by decide, by decide, by decide, fun _ => rfl⟩
theorem ldLH : Statement .ldLH := ⟨by decide, by decide, by decide, fun _ => rfl⟩
theorem ldLL : Statement .ldLL := ⟨by decide, by decide, by decide, fun _ => rfl⟩
theorem ldLA : Statement .ldLA := ⟨by decide, by decide, by decide, fun _ => rfl⟩
theorem ldAB : Statement .ldAB := ⟨by decide, by decide, by decide, fun _ => rfl⟩
theorem ldAC : Statement .ldAC := ⟨by decide, by decide, by decide, fun _ => rfl⟩
theorem ldAD : Statement .ldAD := ⟨by decide, by decide, by decide, fun _ => rfl⟩
theorem ldAE : Statement .ldAE := ⟨by decide, by decide, by decide, fun _ => rfl⟩
theorem ldAH : Statement .ldAH := ⟨by decide, by decide, by decide, fun _ => rfl⟩
theorem ldAL : Statement .ldAL := ⟨by decide, by decide, by decide, fun _ => rfl⟩
theorem ldAA : Statement .ldAA := ⟨by decide, by decide, by decide, fun _ => rfl⟩
theorem xorA : Statement .xorA := ⟨by decide, by decide, by decide, fun _ => rfl⟩
theorem retNz : Statement .retNz := ⟨by decide, by decide, by decide, fun _ => rfl⟩
theorem jpNn (nn : Word) : Statement (.jpNn nn) :=
  ⟨by simp [encode], by simp [encode, Instr.length], by simp [Instr.length], fun _ => rfl⟩
theorem ret : Statement .ret := ⟨by decide, by decide, by decide, fun _ => rfl⟩
theorem callNn (nn : Word) : Statement (.callNn nn) :=
  ⟨by simp [encode], by simp [encode, Instr.length], by simp [Instr.length], fun _ => rfl⟩
theorem ldhMemNA (n : Byte) : Statement (.ldhMemNA n) :=
  ⟨by simp [encode], by simp [encode, Instr.length], by simp [Instr.length], fun _ => rfl⟩
theorem ldMemNnA (nn : Word) : Statement (.ldMemNnA nn) :=
  ⟨by simp [encode], by simp [encode, Instr.length], by simp [Instr.length], fun _ => rfl⟩
theorem ldhAMemN (n : Byte) : Statement (.ldhAMemN n) :=
  ⟨by simp [encode], by simp [encode, Instr.length], by simp [Instr.length], fun _ => rfl⟩
theorem di : Statement .di := ⟨by decide, by decide, by decide, fun _ => rfl⟩
theorem ldAMemNn (nn : Word) : Statement (.ldAMemNn nn) :=
  ⟨by simp [encode], by simp [encode, Instr.length], by simp [Instr.length], fun _ => rfl⟩
theorem cpN (n : Byte) : Statement (.cpN n) :=
  ⟨by simp [encode], by simp [encode, Instr.length], by simp [Instr.length], fun _ => rfl⟩
theorem rst38 : Statement .rst38 := ⟨by decide, by decide, by decide, fun _ => rfl⟩
theorem res0B : Statement .res0B := ⟨by decide, by decide, by decide, fun _ => rfl⟩
theorem res0C : Statement .res0C := ⟨by decide, by decide, by decide, fun _ => rfl⟩
theorem res0D : Statement .res0D := ⟨by decide, by decide, by decide, fun _ => rfl⟩
theorem res0E : Statement .res0E := ⟨by decide, by decide, by decide, fun _ => rfl⟩
theorem res0H : Statement .res0H := ⟨by decide, by decide, by decide, fun _ => rfl⟩
theorem res0L : Statement .res0L := ⟨by decide, by decide, by decide, fun _ => rfl⟩
theorem res0A : Statement .res0A := ⟨by decide, by decide, by decide, fun _ => rfl⟩
theorem res1B : Statement .res1B := ⟨by decide, by decide, by decide, fun _ => rfl⟩
theorem res1C : Statement .res1C := ⟨by decide, by decide, by decide, fun _ => rfl⟩
theorem res1D : Statement .res1D := ⟨by decide, by decide, by decide, fun _ => rfl⟩
theorem res1E : Statement .res1E := ⟨by decide, by decide, by decide, fun _ => rfl⟩
theorem res1H : Statement .res1H := ⟨by decide, by decide, by decide, fun _ => rfl⟩
theorem res1L : Statement .res1L := ⟨by decide, by decide, by decide, fun _ => rfl⟩
theorem res1A : Statement .res1A := ⟨by decide, by decide, by decide, fun _ => rfl⟩
theorem res2B : Statement .res2B := ⟨by decide, by decide, by decide, fun _ => rfl⟩
theorem res2C : Statement .res2C := ⟨by decide, by decide, by decide, fun _ => rfl⟩
theorem res2D : Statement .res2D := ⟨by decide, by decide, by decide, fun _ => rfl⟩
theorem res2E : Statement .res2E := ⟨by decide, by decide, by decide, fun _ => rfl⟩
theorem res2H : Statement .res2H := ⟨by decide, by decide, by decide, fun _ => rfl⟩
theorem res2L : Statement .res2L := ⟨by decide, by decide, by decide, fun _ => rfl⟩
theorem res2A : Statement .res2A := ⟨by decide, by decide, by decide, fun _ => rfl⟩
theorem res3B : Statement .res3B := ⟨by decide, by decide, by decide, fun _ => rfl⟩
theorem res3C : Statement .res3C := ⟨by decide, by decide, by decide, fun _ => rfl⟩
theorem res3D : Statement .res3D := ⟨by decide, by decide, by decide, fun _ => rfl⟩
theorem res3E : Statement .res3E := ⟨by decide, by decide, by decide, fun _ => rfl⟩
theorem res3H : Statement .res3H := ⟨by decide, by decide, by decide, fun _ => rfl⟩
theorem res3L : Statement .res3L := ⟨by decide, by decide, by decide, fun _ => rfl⟩
theorem res3A : Statement .res3A := ⟨by decide, by decide, by decide, fun _ => rfl⟩
theorem res4B : Statement .res4B := ⟨by decide, by decide, by decide, fun _ => rfl⟩
theorem res4C : Statement .res4C := ⟨by decide, by decide, by decide, fun _ => rfl⟩
theorem res4D : Statement .res4D := ⟨by decide, by decide, by decide, fun _ => rfl⟩
theorem res4E : Statement .res4E := ⟨by decide, by decide, by decide, fun _ => rfl⟩
theorem res4H : Statement .res4H := ⟨by decide, by decide, by decide, fun _ => rfl⟩
theorem res4L : Statement .res4L := ⟨by decide, by decide, by decide, fun _ => rfl⟩
theorem res4A : Statement .res4A := ⟨by decide, by decide, by decide, fun _ => rfl⟩
theorem res5B : Statement .res5B := ⟨by decide, by decide, by decide, fun _ => rfl⟩
theorem res5C : Statement .res5C := ⟨by decide, by decide, by decide, fun _ => rfl⟩
theorem res5D : Statement .res5D := ⟨by decide, by decide, by decide, fun _ => rfl⟩
theorem res5E : Statement .res5E := ⟨by decide, by decide, by decide, fun _ => rfl⟩
theorem res5H : Statement .res5H := ⟨by decide, by decide, by decide, fun _ => rfl⟩
theorem res5L : Statement .res5L := ⟨by decide, by decide, by decide, fun _ => rfl⟩
theorem res5A : Statement .res5A := ⟨by decide, by decide, by decide, fun _ => rfl⟩
theorem res6B : Statement .res6B := ⟨by decide, by decide, by decide, fun _ => rfl⟩
theorem res6C : Statement .res6C := ⟨by decide, by decide, by decide, fun _ => rfl⟩
theorem res6D : Statement .res6D := ⟨by decide, by decide, by decide, fun _ => rfl⟩
theorem res6E : Statement .res6E := ⟨by decide, by decide, by decide, fun _ => rfl⟩
theorem res6H : Statement .res6H := ⟨by decide, by decide, by decide, fun _ => rfl⟩
theorem res6L : Statement .res6L := ⟨by decide, by decide, by decide, fun _ => rfl⟩
theorem res6A : Statement .res6A := ⟨by decide, by decide, by decide, fun _ => rfl⟩
theorem res7B : Statement .res7B := ⟨by decide, by decide, by decide, fun _ => rfl⟩
theorem res7C : Statement .res7C := ⟨by decide, by decide, by decide, fun _ => rfl⟩
theorem res7D : Statement .res7D := ⟨by decide, by decide, by decide, fun _ => rfl⟩
theorem res7E : Statement .res7E := ⟨by decide, by decide, by decide, fun _ => rfl⟩
theorem res7H : Statement .res7H := ⟨by decide, by decide, by decide, fun _ => rfl⟩
theorem res7L : Statement .res7L := ⟨by decide, by decide, by decide, fun _ => rfl⟩
theorem res7A : Statement .res7A := ⟨by decide, by decide, by decide, fun _ => rfl⟩
theorem escapePrefix : Statement .escapePrefix := ⟨by decide, by decide, by decide, fun h => absurd rfl h⟩
theorem unknownOpcode (op : Byte) : Statement (.unknownOpcode op) :=
  ⟨by simp [encode], by simp [encode, Instr.length], by simp [Instr.length], fun _ => rfl⟩
theorem unknownEscapedOpcode (op2 : Byte) : Statement (.unknownEscapedOpcode op2) :=
  ⟨by simp [encode], by simp [encode, Instr.length], by simp [Instr.length], fun _ => rfl⟩

end Sys2Proof.Laws.EncodedLength
end

