-- ==== Sys2Proof/Tests/Slice0.lean ====
section
/-! SUPPORT. The model's own tests: ill-formed terms refused, words written from the spec's encodings,
one-step vectors of 95_test_vectors.md (each test names its vector), and the witnesses that the
obligations' hypotheses can be met. -/

open Sys2Proof Sys2Proof.Machine

namespace Sys2Proof.Tests

/-! Well-formed terms -/

theorem test_named_byte_is_no_unknown_opcode : (Instr.unknownOpcode 0x00#8).wellFormed = false := by decide
theorem test_escape_byte_is_no_unknown_opcode : (Instr.unknownOpcode 0xCB#8).wellFormed = false := by decide
theorem test_res_byte_is_no_unknown_escaped : (Instr.unknownEscapedOpcode 0x80#8).wellFormed = false := by
  decide
theorem test_unknown_bytes_are_well_formed : (Instr.unknownOpcode 0xD3#8).wellFormed = true ∧
    (Instr.unknownEscapedOpcode 0x86#8).wellFormed = true := by decide

/-! Decoding: each word is written bit by bit from R112 to R118 -/

/-- The bytes decode to the instruction, with nothing left. -/
abbrev decodesTo (bytes : List Byte) (i : Instr) : Prop := decode bytes = .ok (i, [])

/-- R118. -/
theorem test_decode_control :
    decodesTo [0b00011000#8, 0x9A#8] (.jrN 0x9A#8) ∧ decodesTo [0b00100000#8, 0x9A#8] (.jrNzN 0x9A#8) ∧
    decodesTo [0b00101000#8, 0x9A#8] (.jrZN 0x9A#8) ∧ decodesTo [0b11000000#8] .retNz ∧
    decodesTo [0b11000011#8, 0xEF#8, 0xBE#8] (.jpNn 0xBEEF#16) ∧ decodesTo [0b11001001#8] .ret ∧
    decodesTo [0b11001101#8, 0xEF#8, 0xBE#8] (.callNn 0xBEEF#16) ∧ decodesTo [0b11111111#8] .rst38 := by
  and_intros <;> rfl

/-- R118. -/
theorem test_decode_system :
    decodesTo [0b00000000#8] .nop ∧ decodesTo [0b11110011#8] .di := by
  and_intros <;> rfl

/-- R118. -/
theorem test_decode_wide_loads :
    decodesTo [0b00000001#8, 0xEF#8, 0xBE#8] (.ldBcNn 0xBEEF#16) ∧
    decodesTo [0b00010001#8, 0xEF#8, 0xBE#8] (.ldDeNn 0xBEEF#16) ∧
    decodesTo [0b00100001#8, 0xEF#8, 0xBE#8] (.ldHlNn 0xBEEF#16) ∧
    decodesTo [0b00110001#8, 0xEF#8, 0xBE#8] (.ldSpNn 0xBEEF#16) ∧
    decodesTo [0b11101010#8, 0xEF#8, 0xBE#8] (.ldMemNnA 0xBEEF#16) ∧
    decodesTo [0b11111010#8, 0xEF#8, 0xBE#8] (.ldAMemNn 0xBEEF#16) := by
  and_intros <;> rfl

/-- R118. -/
theorem test_decode_byte_loads :
    decodesTo [0b00000110#8, 0x9A#8] (.ldBN 0x9A#8) ∧ decodesTo [0b00001110#8, 0x9A#8] (.ldCN 0x9A#8) ∧
    decodesTo [0b00010110#8, 0x9A#8] (.ldDN 0x9A#8) ∧ decodesTo [0b00011110#8, 0x9A#8] (.ldEN 0x9A#8) ∧
    decodesTo [0b00100110#8, 0x9A#8] (.ldHN 0x9A#8) ∧ decodesTo [0b00101110#8, 0x9A#8] (.ldLN 0x9A#8) ∧
    decodesTo [0b00111110#8, 0x9A#8] (.ldAN 0x9A#8) ∧ decodesTo [0b11100000#8, 0x9A#8] (.ldhMemNA 0x9A#8) ∧
    decodesTo [0b11110000#8, 0x9A#8] (.ldhAMemN 0x9A#8) := by
  and_intros <;> rfl

/-- R118. -/
theorem test_decode_alu :
    decodesTo [0b00000011#8] .incBc ∧ decodesTo [0b00010011#8] .incDe ∧ decodesTo [0b00100011#8] .incHl ∧
    decodesTo [0b00110011#8] .incSp ∧ decodesTo [0b10101111#8] .xorA ∧
    decodesTo [0b11111110#8, 0x9A#8] (.cpN 0x9A#8) := by
  and_intros <;> rfl

/-- `01 ddd sss` with `ddd` = B (R112, R113). -/
theorem test_decode_ld_to_b :
    decodesTo [0b01000000#8] .ldBB ∧ decodesTo [0b01000001#8] .ldBC ∧ decodesTo [0b01000010#8] .ldBD ∧
    decodesTo [0b01000011#8] .ldBE ∧ decodesTo [0b01000100#8] .ldBH ∧ decodesTo [0b01000101#8] .ldBL ∧
    decodesTo [0b01000111#8] .ldBA := by
  and_intros <;> rfl

/-- `01 ddd sss` with `ddd` = C (R112, R113). -/
theorem test_decode_ld_to_c :
    decodesTo [0b01001000#8] .ldCB ∧ decodesTo [0b01001001#8] .ldCC ∧ decodesTo [0b01001010#8] .ldCD ∧
    decodesTo [0b01001011#8] .ldCE ∧ decodesTo [0b01001100#8] .ldCH ∧ decodesTo [0b01001101#8] .ldCL ∧
    decodesTo [0b01001111#8] .ldCA := by
  and_intros <;> rfl

/-- `01 ddd sss` with `ddd` = D (R112, R113). -/
theorem test_decode_ld_to_d :
    decodesTo [0b01010000#8] .ldDB ∧ decodesTo [0b01010001#8] .ldDC ∧ decodesTo [0b01010010#8] .ldDD ∧
    decodesTo [0b01010011#8] .ldDE ∧ decodesTo [0b01010100#8] .ldDH ∧ decodesTo [0b01010101#8] .ldDL ∧
    decodesTo [0b01010111#8] .ldDA := by
  and_intros <;> rfl

/-- `01 ddd sss` with `ddd` = E (R112, R113). -/
theorem test_decode_ld_to_e :
    decodesTo [0b01011000#8] .ldEB ∧ decodesTo [0b01011001#8] .ldEC ∧ decodesTo [0b01011010#8] .ldED ∧
    decodesTo [0b01011011#8] .ldEE ∧ decodesTo [0b01011100#8] .ldEH ∧ decodesTo [0b01011101#8] .ldEL ∧
    decodesTo [0b01011111#8] .ldEA := by
  and_intros <;> rfl

/-- `01 ddd sss` with `ddd` = H (R112, R113). -/
theorem test_decode_ld_to_h :
    decodesTo [0b01100000#8] .ldHB ∧ decodesTo [0b01100001#8] .ldHC ∧ decodesTo [0b01100010#8] .ldHD ∧
    decodesTo [0b01100011#8] .ldHE ∧ decodesTo [0b01100100#8] .ldHH ∧ decodesTo [0b01100101#8] .ldHL ∧
    decodesTo [0b01100111#8] .ldHA := by
  and_intros <;> rfl

/-- `01 ddd sss` with `ddd` = L (R112, R113). -/
theorem test_decode_ld_to_l :
    decodesTo [0b01101000#8] .ldLB ∧ decodesTo [0b01101001#8] .ldLC ∧ decodesTo [0b01101010#8] .ldLD ∧
    decodesTo [0b01101011#8] .ldLE ∧ decodesTo [0b01101100#8] .ldLH ∧ decodesTo [0b01101101#8] .ldLL ∧
    decodesTo [0b01101111#8] .ldLA := by
  and_intros <;> rfl

/-- `01 ddd sss` with `ddd` = A (R112, R113). -/
theorem test_decode_ld_to_a :
    decodesTo [0b01111000#8] .ldAB ∧ decodesTo [0b01111001#8] .ldAC ∧ decodesTo [0b01111010#8] .ldAD ∧
    decodesTo [0b01111011#8] .ldAE ∧ decodesTo [0b01111100#8] .ldAH ∧ decodesTo [0b01111101#8] .ldAL ∧
    decodesTo [0b01111111#8] .ldAA := by
  and_intros <;> rfl

/-- 0xCB, `10 bbb sss` with `bbb` = 0 (R112, R203). -/
theorem test_decode_res_0 :
    decodesTo [0b11001011#8, 0b10000000#8] .res0B ∧ decodesTo [0b11001011#8, 0b10000001#8] .res0C ∧
    decodesTo [0b11001011#8, 0b10000010#8] .res0D ∧ decodesTo [0b11001011#8, 0b10000011#8] .res0E ∧
    decodesTo [0b11001011#8, 0b10000100#8] .res0H ∧ decodesTo [0b11001011#8, 0b10000101#8] .res0L ∧
    decodesTo [0b11001011#8, 0b10000111#8] .res0A := by
  and_intros <;> rfl

/-- 0xCB, `10 bbb sss` with `bbb` = 1 (R112, R203). -/
theorem test_decode_res_1 :
    decodesTo [0b11001011#8, 0b10001000#8] .res1B ∧ decodesTo [0b11001011#8, 0b10001001#8] .res1C ∧
    decodesTo [0b11001011#8, 0b10001010#8] .res1D ∧ decodesTo [0b11001011#8, 0b10001011#8] .res1E ∧
    decodesTo [0b11001011#8, 0b10001100#8] .res1H ∧ decodesTo [0b11001011#8, 0b10001101#8] .res1L ∧
    decodesTo [0b11001011#8, 0b10001111#8] .res1A := by
  and_intros <;> rfl

/-- 0xCB, `10 bbb sss` with `bbb` = 2 (R112, R203). -/
theorem test_decode_res_2 :
    decodesTo [0b11001011#8, 0b10010000#8] .res2B ∧ decodesTo [0b11001011#8, 0b10010001#8] .res2C ∧
    decodesTo [0b11001011#8, 0b10010010#8] .res2D ∧ decodesTo [0b11001011#8, 0b10010011#8] .res2E ∧
    decodesTo [0b11001011#8, 0b10010100#8] .res2H ∧ decodesTo [0b11001011#8, 0b10010101#8] .res2L ∧
    decodesTo [0b11001011#8, 0b10010111#8] .res2A := by
  and_intros <;> rfl

/-- 0xCB, `10 bbb sss` with `bbb` = 3 (R112, R203). -/
theorem test_decode_res_3 :
    decodesTo [0b11001011#8, 0b10011000#8] .res3B ∧ decodesTo [0b11001011#8, 0b10011001#8] .res3C ∧
    decodesTo [0b11001011#8, 0b10011010#8] .res3D ∧ decodesTo [0b11001011#8, 0b10011011#8] .res3E ∧
    decodesTo [0b11001011#8, 0b10011100#8] .res3H ∧ decodesTo [0b11001011#8, 0b10011101#8] .res3L ∧
    decodesTo [0b11001011#8, 0b10011111#8] .res3A := by
  and_intros <;> rfl

/-- 0xCB, `10 bbb sss` with `bbb` = 4 (R112, R203). -/
theorem test_decode_res_4 :
    decodesTo [0b11001011#8, 0b10100000#8] .res4B ∧ decodesTo [0b11001011#8, 0b10100001#8] .res4C ∧
    decodesTo [0b11001011#8, 0b10100010#8] .res4D ∧ decodesTo [0b11001011#8, 0b10100011#8] .res4E ∧
    decodesTo [0b11001011#8, 0b10100100#8] .res4H ∧ decodesTo [0b11001011#8, 0b10100101#8] .res4L ∧
    decodesTo [0b11001011#8, 0b10100111#8] .res4A := by
  and_intros <;> rfl

/-- 0xCB, `10 bbb sss` with `bbb` = 5 (R112, R203). -/
theorem test_decode_res_5 :
    decodesTo [0b11001011#8, 0b10101000#8] .res5B ∧ decodesTo [0b11001011#8, 0b10101001#8] .res5C ∧
    decodesTo [0b11001011#8, 0b10101010#8] .res5D ∧ decodesTo [0b11001011#8, 0b10101011#8] .res5E ∧
    decodesTo [0b11001011#8, 0b10101100#8] .res5H ∧ decodesTo [0b11001011#8, 0b10101101#8] .res5L ∧
    decodesTo [0b11001011#8, 0b10101111#8] .res5A := by
  and_intros <;> rfl

/-- 0xCB, `10 bbb sss` with `bbb` = 6 (R112, R203). -/
theorem test_decode_res_6 :
    decodesTo [0b11001011#8, 0b10110000#8] .res6B ∧ decodesTo [0b11001011#8, 0b10110001#8] .res6C ∧
    decodesTo [0b11001011#8, 0b10110010#8] .res6D ∧ decodesTo [0b11001011#8, 0b10110011#8] .res6E ∧
    decodesTo [0b11001011#8, 0b10110100#8] .res6H ∧ decodesTo [0b11001011#8, 0b10110101#8] .res6L ∧
    decodesTo [0b11001011#8, 0b10110111#8] .res6A := by
  and_intros <;> rfl

/-- 0xCB, `10 bbb sss` with `bbb` = 7 (R112, R203). -/
theorem test_decode_res_7 :
    decodesTo [0b11001011#8, 0b10111000#8] .res7B ∧ decodesTo [0b11001011#8, 0b10111001#8] .res7C ∧
    decodesTo [0b11001011#8, 0b10111010#8] .res7D ∧ decodesTo [0b11001011#8, 0b10111011#8] .res7E ∧
    decodesTo [0b11001011#8, 0b10111100#8] .res7H ∧ decodesTo [0b11001011#8, 0b10111101#8] .res7L ∧
    decodesTo [0b11001011#8, 0b10111111#8] .res7A := by
  and_intros <;> rfl

/-- The prefix row alone; V-ENC-13, V-ENC-14; a hole of the real console's map (R120). -/
theorem test_decode_fallbacks :
    decodesTo [0b11001011#8] .escapePrefix ∧
    decodesTo [0b01110000#8] (.unknownOpcode 0x70#8) ∧ decodesTo [0xD3#8] (.unknownOpcode 0xD3#8) ∧
    decodesTo [0b11001011#8, 0b10000110#8] (.unknownEscapedOpcode 0x86#8) := by
  and_intros <;> rfl

/-- The decoder refuses what is too short, by name, and leaves the bytes after an instruction. -/
theorem test_decode_short_and_long :
    decode [] = .error .noBytes ∧ decode [0xC3#8, 0x50#8] = .error (.truncated 0xC3#8) ∧
    decode [0x3E#8, 0x42#8, 0xFE#8] = .ok (.ldAN 0x42#8, [0xFE#8]) := by
  and_intros <;> rfl

/-- Table words, numbered as spec/opcode_table.json numbers them (assumption 3). -/
theorem test_table_words :
    decodeTableWord 8 0x00 = some .nop ∧ decodeTableWord 8 0xC3 = some (.jpNn 0x0000#16) ∧
    decodeTableWord 8 0xCB = some .escapePrefix ∧ decodeTableWord 8 0x87 = some .res0A ∧
    decodeTableWord 16 0xCBAF = some .res5A ∧ decodeTableWord 8 0xAF = some .xorA ∧
    decodeTableWord 16 0xCB37 = some (.unknownEscapedOpcode 0x37#8) ∧
    decodeTableWord 8 0xFB = some (.unknownOpcode 0xFB#8) := by
  and_intros <;> rfl

/-! One step from the common launch state (95_test_vectors.md section 0) -/

/-- The parameters of 95_test_vectors.md section 0. -/
def vectorConfig : Config where
  romLen := 32768
  watchdogThreshold := 50000
  autoImeThreshold := 100000
  watchdogAccounts := true
  watchdogLcdcOpen := 0x93#8
  watchdogBgp := 0xE4#8
  cbUnknownCost := 0x08#8

/-- The common launch state. -/
def launch : State := { State.reset with cfg := vectorConfig }

/-- A state with an instruction's bytes stored from an address on. -/
def withCode (addr : Nat) (bytes : List Byte) (s : State) : State :=
  match bytes with
  | [] => s
  | v :: rest => withCode (addr + 1) rest { s with mem := s.mem.set addr v }

/-- The outcome is a next state that passes the check. -/
def answersNext (o : Host.Outcome State Fault Refusal) (check : State → Bool) : Bool :=
  match o with
  | .next t => check t
  | .fault _ | .refused _ => false

/-- V-SRC-1 -/
theorem test_jp :
    answersNext (step (withCode 0x0100 [0xC3#8, 0x50#8, 0x01#8] launch)) (fun t => t.pc == 0x0150#16 &&
      t.cost == 16#8 && t.total == 16 && t.clk == 16) = true := by decide

/-- V-SRC-2, V-ALU-5 -/
theorem test_xor_a :
    answersNext (step (withCode 0x0100 [0xAF#8] { launch with a := 0xFF#8 })) (fun t => t.a == 0x00#8 &&
      t.f == 0x80#8 && t.pc == 0x0101#16 && t.cost == 4#8) = true := by decide

/-- V-SRC-3 -/
theorem test_ld_a_n :
    answersNext (step (withCode 0x0100 [0x3E#8, 0x42#8] launch)) (fun t => t.a == 0x42#8 && t.f == 0xB0#8
      && t.pc == 0x0102#16 && t.cost == 8#8) = true := by decide

/-- V-SRC-4 -/
theorem test_cp_equal :
    answersNext (step (withCode 0x0100 [0xFE#8, 0x42#8] { launch with a := 0x42#8 })) (fun t => t.a ==
      0x42#8 && t.f == 0x80#8 && t.pc == 0x0102#16 && t.cost == 8#8) = true := by decide

/-- V-ALU-2 -/
theorem test_cp_less :
    answersNext (step (withCode 0x0100 [0xFE#8, 0x02#8] launch)) (fun t => t.f == 0x00#8 && t.cost == 8#8)
      = true := by decide

/-- V-CT-1 -/
theorem test_jr_forward :
    answersNext (step (withCode 0x0100 [0x18#8, 0x7F#8] launch)) (fun t => t.pc == 0x0181#16 && t.cost ==
      12#8) = true := by decide

/-- V-CT-2 -/
theorem test_jr_back :
    answersNext (step (withCode 0x0100 [0x18#8, 0x80#8] launch)) (fun t => t.pc == 0x0082#16 && t.cost ==
      12#8) = true := by decide

/-- V-CT-8 -/
theorem test_jr_z_taken :
    answersNext (step (withCode 0x0100 [0x28#8, 0x05#8] launch)) (fun t => t.pc == 0x0107#16 && t.cost ==
      12#8) = true := by decide

/-- V-CT-9 -/
theorem test_jr_z_not_taken :
    answersNext (step (withCode 0x0100 [0x28#8, 0x05#8] { launch with f := 0x00#8 })) (fun t => t.pc ==
      0x0102#16 && t.cost == 8#8) = true := by decide

/-- V-CT-10 -/
theorem test_jr_nz_not_taken :
    answersNext (step (withCode 0x0100 [0x20#8, 0x05#8] launch)) (fun t => t.pc == 0x0102#16 && t.cost ==
      8#8) = true := by decide

/-- V-CT-12 -/
theorem test_jr_nz_taken :
    answersNext (step (withCode 0x0100 [0x20#8, 0x10#8] { launch with f := 0x70#8 })) (fun t => t.pc ==
      0x0112#16 && t.f == 0x70#8 && t.cost == 12#8) = true := by decide

/-- V-CT-14 -/
theorem test_call :
    answersNext (step (withCode 0x0100 [0xCD#8, 0x34#8, 0x12#8] launch)) (fun t => t.pc == 0x1234#16 &&
      t.sp == 0xFFFC#16 && t.cost == 24#8 && t.mem.get 0xFFFD == 0x01#8 && t.mem.get 0xFFFC == 0x03#8) =
      true := by decide

/-- V-CT-17 -/
theorem test_call_unmapped_stack :
    answersNext (step (withCode 0x0100 [0xCD#8, 0x34#8, 0x12#8] { launch with sp := 0xA002#16 })) (fun t =>
      t.sp == 0xA000#16 && t.trace == [.unmappedWrite 0xA001#16 0x01#8, .unmappedWrite 0xA000#16 0x03#8]) =
      true := by decide

/-- V-CT-16 -/
theorem test_call_stack_over_ie :
    answersNext (step (withCode 0x0100 [0xCD#8, 0x34#8, 0x12#8] { launch with sp := 0x0000#16 })) (fun t =>
      t.sp == 0xFFFE#16 && t.ie == 0x01#8 && t.mem.get 0xFFFE == 0x03#8) = true := by decide

/-- V-CT-20 -/
theorem test_ret_over_ie :
    answersNext (step (withCode 0x0100 [0xC9#8] { launch with sp := 0xFFFF#16, ie := 0x34#8, mem :=
      [(0x0000, 0x77#8)] })) (fun t => t.pc == 0x7734#16 && t.sp == 0x0001#16 && t.cost == 16#8) = true :=
      by decide

/-- V-CT-21 -/
theorem test_ret_nz_not_taken :
    answersNext (step (withCode 0x0100 [0xC0#8] launch)) (fun t => t.pc == 0x0101#16 && t.sp == 0xFFFE#16
      && t.cost == 8#8 && t.trace == []) = true := by decide

/-- V-CT-22 -/
theorem test_ret_nz_taken :
    answersNext (step (withCode 0x0100 [0xC0#8] { launch with f := 0x00#8, sp := 0xC002#16, mem :=
      [(0xC002, 0x38#8)] })) (fun t => t.pc == 0x0038#16 && t.sp == 0xC004#16 && t.cost == 20#8) = true :=
      by decide

/-- V-CT-24 -/
theorem test_rst_38h :
    answersNext (step (withCode 0x0100 [0xFF#8] launch)) (fun t => t.pc == 0x0038#16 && t.sp == 0xFFFC#16
      && t.cost == 16#8 && t.mem.get 0xFFFD == 0x01#8 && t.mem.get 0xFFFC == 0x01#8) = true := by decide

/-- V-LD-1 -/
theorem test_ld_a_b :
    answersNext (step (withCode 0x0100 [0x78#8] { launch with b := 0x03#8 })) (fun t => t.a == 0x03#8 &&
      t.pc == 0x0101#16 && t.cost == 4#8) = true := by decide

/-- V-LD-3 -/
theorem test_ld_h_l :
    answersNext (step (withCode 0x0100 [0x65#8] launch)) (fun t => t.h == 0x4D#8 && t.l == 0x4D#8 && t.cost
      == 4#8) = true := by decide

/-- V-LD-6 -/
theorem test_ld_b_n :
    answersNext (step (withCode 0x0100 [0x06#8, 0xFF#8] launch)) (fun t => t.b == 0xFF#8 && t.f == 0xB0#8
      && t.cost == 8#8) = true := by decide

/-- V-LD-7 -/
theorem test_ld_l_zero :
    answersNext (step (withCode 0x0100 [0x2E#8, 0x00#8] launch)) (fun t => t.l == 0x00#8 && t.f == 0xB0#8)
      = true := by decide

/-- V-LD-9 -/
theorem test_ld_bc_nn :
    answersNext (step (withCode 0x0100 [0x01#8, 0x34#8, 0x12#8] launch)) (fun t => t.b == 0x12#8 && t.c ==
      0x34#8 && t.pc == 0x0103#16 && t.cost == 12#8) = true := by decide

/-- V-LD-10 -/
theorem test_ld_sp_nn :
    answersNext (step (withCode 0x0100 [0x31#8, 0x00#8, 0xD0#8] launch)) (fun t => t.sp == 0xD000#16 &&
      t.cost == 12#8) = true := by decide

/-- V-LD-12 -/
theorem test_store_wram :
    answersNext (step (withCode 0x0100 [0xEA#8, 0x00#8, 0xC0#8] { launch with a := 0x42#8 })) (fun t =>
      t.pc == 0x0103#16 && t.cost == 16#8 && t.mem.get 0xC000 == 0x42#8) = true := by decide

/-- V-LD-15 -/
theorem test_store_stat :
    answersNext (step (withCode 0x0100 [0xEA#8, 0x41#8, 0xFF#8] { launch with a := 0xFF#8 })) (fun t =>
      t.stat == 0xFE#8) = true := by decide

/-- V-LD-16 -/
theorem test_store_ly :
    answersNext (step (withCode 0x0100 [0xEA#8, 0x44#8, 0xFF#8] { launch with a := 0x42#8 })) (fun t =>
      t.ly == 0x00#8 && t.trace == []) = true := by decide

/-- V-LD-14 -/
theorem test_store_unmapped :
    answersNext (step (withCode 0x0100 [0xEA#8, 0x00#8, 0xA0#8] { launch with a := 0x42#8 })) (fun t =>
      t.trace == [.unmappedWrite 0xA000#16 0x42#8] && t.mem.get 0xA000 == 0x00#8) = true := by decide

/-- V-LD-20 -/
theorem test_load_unmapped :
    answersNext (step (withCode 0x0100 [0xFA#8, 0xA0#8, 0xFE#8] { launch with a := 0x42#8 })) (fun t => t.a
      == 0x00#8 && t.cost == 16#8 && t.trace == [.unmappedRead 0xFEA0#16]) = true := by decide

/-- V-LD-19 -/
theorem test_load_rom :
    answersNext (step (withCode 0x0100 [0xFA#8, 0x34#8, 0x01#8] { launch with mem := [(0x0134, 0x54#8)] }))
      (fun t => t.a == 0x54#8) = true := by decide

/-- V-LD-22 -/
theorem test_ldh_store_hram :
    answersNext (step (withCode 0x0100 [0xE0#8, 0x80#8] { launch with a := 0x42#8 })) (fun t => t.pc ==
      0x0102#16 && t.cost == 12#8 && t.mem.get 0xFF80 == 0x42#8) = true := by decide

/-- V-LD-25 -/
theorem test_ldh_store_if :
    answersNext (step (withCode 0x0100 [0xE0#8, 0x0F#8] { launch with a := 0x42#8 })) (fun t => t.ifReg ==
      0x42#8 && t.mem.get 0xFF0F == 0x00#8) = true := by decide

/-- V-LD-26 -/
theorem test_ldh_load_ly :
    answersNext (step (withCode 0x0100 [0xF0#8, 0x44#8] { launch with ly := 0x90#8, mode := .vblank, stat
      := 0x01#8 })) (fun t => t.a == 0x90#8 && t.cost == 12#8) = true := by decide

/-- V-LD-27 -/
theorem test_ldh_load_stat :
    answersNext (step (withCode 0x0100 [0xF0#8, 0x41#8] { launch with stat := 0x7A#8 })) (fun t => t.a ==
      0x7A#8) = true := by decide

/-- V-ALU-8 -/
theorem test_inc_bc_carry :
    answersNext (step (withCode 0x0100 [0x03#8] { launch with b := 0x00#8, c := 0xFF#8 })) (fun t => t.b ==
      0x01#8 && t.c == 0x00#8 && t.f == 0xB0#8 && t.cost == 8#8) = true := by decide

/-- V-ALU-9 -/
theorem test_inc_hl_wraps :
    answersNext (step (withCode 0x0100 [0x23#8] { launch with h := 0xFF#8, l := 0xFF#8 })) (fun t => t.h ==
      0x00#8 && t.l == 0x00#8 && t.f == 0xB0#8) = true := by decide

/-- V-ALU-11 -/
theorem test_inc_sp_wraps :
    answersNext (step (withCode 0x0100 [0x33#8] { launch with sp := 0xFFFF#16 })) (fun t => t.sp ==
      0x0000#16) = true := by decide

/-- V-ALU-7 -/
theorem test_inc_de :
    answersNext (step (withCode 0x0100 [0x13#8] launch)) (fun t => t.d == 0x00#8 && t.e == 0xD9#8) = true
      := by decide

/-- V-ALU-12 -/
theorem test_res_0_a :
    answersNext (step (withCode 0x0100 [0xCB#8, 0x87#8] { launch with a := 0xFF#8 })) (fun t => t.a ==
      0xFE#8 && t.pc == 0x0102#16 && t.f == 0xB0#8 && t.cost == 8#8) = true := by decide

/-- V-ALU-13 -/
theorem test_res_7_b :
    answersNext (step (withCode 0x0100 [0xCB#8, 0xB8#8] { launch with b := 0x80#8 })) (fun t => t.b ==
      0x00#8 && t.f == 0xB0#8) = true := by decide

/-- V-ALU-15 -/
theorem test_res_3_e :
    answersNext (step (withCode 0x0100 [0xCB#8, 0x9B#8] launch)) (fun t => t.e == 0xD0#8) = true := by
      decide

/-- V-ALU-16 -/
theorem test_unknown_escaped :
    answersNext (step (withCode 0x0100 [0xCB#8, 0x86#8] launch)) (fun t => t.pc == 0x0102#16 && t.cost ==
      8#8 && t.trace == [.unknownEscapedOpcode 0x0100#16 0x86#8]) = true := by decide

/-- V-SYS-4 -/
theorem test_nop_dispatches_nothing :
    answersNext (step (withCode 0x0100 [0x00#8] { launch with ifReg := 0x04#8, ie := 0x04#8 })) (fun t =>
      t.ime == true && t.pc == 0x0101#16 && t.ifReg == 0x04#8 && t.cost == 4#8) = true := by decide

/-- V-SYS-5 -/
theorem test_nop_no_request :
    answersNext (step (withCode 0x0100 [0x00#8] { launch with ifReg := 0x04#8, ie := 0x03#8 })) (fun t =>
      t.ime == false) = true := by decide

/-- V-SYS-3 -/
theorem test_di :
    answersNext (step (withCode 0x0100 [0xF3#8] { launch with ime := true, ifReg := 0x01#8, ie := 0x01#8
      })) (fun t => t.ime == false && t.cost == 4#8) = true := by decide

/-- V-SYS-6 -/
theorem test_unknown_opcode :
    answersNext (step (withCode 0x0100 [0x76#8] launch)) (fun t => t.pc == 0x0101#16 && t.cost == 4#8 &&
      t.total == 4 && t.trace == [.unknownOpcode 0x0100#16 0x76#8]) = true := by decide

/-- V-SYS-7 -/
theorem test_ei_is_unknown :
    answersNext (step (withCode 0x0100 [0xFB#8] launch)) (fun t => t.pc == 0x0101#16 && t.ime == false) =
      true := by decide

/-- V-MEM-1 -/
theorem test_fetch_miss :
    answersNext (step (withCode 0x0100 [0x00#8] { launch with pc := 0xA000#16 })) (fun t => t.pc ==
      0xA001#16 && t.cost == 4#8 && t.trace == [.unmappedRead 0xA000#16]) = true := by decide

/-- V-MEM-2 -/
theorem test_fetch_wraps :
    answersNext (step (withCode 0x0100 [0x00#8] { launch with pc := 0xFFFF#16, ie := 0x3E#8, mem :=
      [(0x0000, 0x99#8)] })) (fun t => t.a == 0x99#8 && t.pc == 0x0001#16 && t.cost == 8#8) = true := by
      decide

/-- V-MEM-3 -/
theorem test_fetch_from_ly :
    answersNext (step (withCode 0x0100 [0x00#8] { launch with pc := 0xFF44#16 })) (fun t => t.pc ==
      0xFF45#16 && t.cost == 4#8) = true := by decide

/-- V-STEP-1 -/
theorem test_at_the_threshold :
    answersNext (step (withCode 0x0100 [0x00#8] { launch with total := 50000 })) (fun t => t.total == 50004
      && t.cost == 4#8) = true := by decide

/-- V-STEP-2 -/
theorem test_watchdog_budget :
    answersNext (step (withCode 0x0100 [0x00#8] { launch with total := 50001 })) (fun t => t.pc ==
      0x0100#16 && t.ime == true && t.ifReg == 0xFF#8 && t.ie == 0xFF#8 && t.lcdc == 0x93#8 && t.bgp ==
      0xE4#8 && t.total == 50021 && t.cost == 20#8 && t.trace == []) = true := by decide

/-- V-STEP-3 -/
theorem test_watchdog_unaccounted :
    answersNext (step (withCode 0x0100 [0x00#8] { launch with total := 50001, cfg := { vectorConfig with
      watchdogAccounts := false } })) (fun t => t.total == 50001 && t.clk == 0 && t.pc == 0x0100#16) = true
      := by decide

/-- V-SRC-6 -/
theorem test_watchdog_after_rst :
    answersNext (step (withCode 0x0100 [0x00#8] { launch with pc := 0x0038#16 })) (fun t => t.pc ==
      0x0100#16 && t.ime == true && t.ifReg == 0xFF#8 && t.ie == 0xFF#8 && t.cost == 20#8 && t.sp ==
      0xFFFE#16) = true := by decide

/-- V-STEP-4 -/
theorem test_auto_ime :
    answersNext (step (withCode 0x0100 [0xF3#8] { launch with total := 100001, cfg := { vectorConfig with
      watchdogThreshold := 1000000 } })) (fun t => t.ime == true && t.total == 100005) = true := by decide

/-- V-STEP-5 -/
theorem test_auto_ime_boundary :
    answersNext (step (withCode 0x0100 [0xF3#8] { launch with total := 100000, cfg := { vectorConfig with
      watchdogThreshold := 1000000 } })) (fun t => t.ime == false && t.total == 100004) = true := by decide

/-! The rendering engine (V-PPU-0) -/

/-- V-PPU-0a and V-PPU-0b. -/
theorem test_overshoot_is_dropped :
    let s := { launch with clk := 76 }
    (advanceClock 24 s).clk = 0 ∧ (advanceClock 24 s).mode = .drawing ∧ (advanceClock 24 s).stat = 0x03#8 ∧
    (advanceClock 3 s).clk = 79 ∧ (advanceClock 3 s).mode = .oamScan := by decide

/-- V-PPU-0c. -/
theorem test_vblank_entry :
    let s := { launch with mode := .hblank, ly := 143#8, clk := 200, stat := 0x00#8 }
    let t := advanceRendering 4 s
    t.ly = 144#8 ∧ t.mode = .vblank ∧ t.stat = 0x01#8 ∧ t.clk = 0 ∧ t.ifReg = 0x01#8 := by decide

/-- V-PPU-0d. -/
theorem test_frame_wraps :
    let s := { launch with mode := .vblank, ly := 153#8, clk := 452, stat := 0x01#8 }
    (advanceClock 4 s).ly = 0#8 ∧ (advanceClock 4 s).mode = .oamScan ∧ (advanceClock 4 s).clk = 0 ∧
    frameComplete 4 s = false := by decide

/-- V-PPU-0e, at two columns. -/
theorem test_hblank_entry_renders :
    let s := { launch with
      mode := .drawing, ly := 7#8, clk := 170, stat := 0x03#8
      fb := Vector.replicate 144 (Vector.replicate 160 3#2) }
    let t := advanceClock 4 s
    t.mode = .hblank ∧ t.clk = 0 ∧ t.fb[7][0] = 0#2 ∧ t.fb[7][159] = 0#2 ∧ t.fb[6][0] = 3#2 := by
  refine ⟨rfl, rfl, ?_, ?_, ?_⟩
  · exact (renderScanline_entry 7 0 _ (by decide) (by decide)).trans (by decide)
  · exact (renderScanline_entry 7 159 _ (by decide) (by decide)).trans (by decide)
  · exact (congrArg (·[0]) (renderScanline_other 7 6 _ (by decide) (by decide))).trans (by decide)

/-! Compositing (V-PPU-1 to V-PPU-10), pixel by pixel -/

/-- The tiles of 95_test_vectors.md section 2.9 that the tests use: tile 1 row 0, tile 2 row 0 and row 4,
tile 4 and tile 5 row 0. -/
def tiles : Memory :=
  [(0x8010, 0x3C#8), (0x8011, 0x7E#8), (0x8020, 0xFF#8), (0x8028, 0xFF#8), (0x8040, 0x80#8),
   (0x8050, 0x01#8)]

/-- A picture: LCDC, and cells above the tiles. -/
def picture (lcdc : Byte) (cells : Memory) : State :=
  { launch with lcdc := lcdc, bgp := 0xE4#8, obp0 := 0xE4#8, obp1 := 0x1B#8, mem := tiles ++ cells }

/-- Some pixels of a row. -/
def pixels (s : State) (y : Nat) (columns : List Nat) : List Nat :=
  columns.map fun x => (s.pixel (s.sortedSprites y) x y).toNat

/-- V-PPU-1. -/
theorem test_display_off : pixels (picture 0x13#8 [(0x9800, 0x01#8)]) 0 [0, 3] = [0, 0] := by decide
/-- V-PPU-2a. -/
theorem test_background_row :
    pixels (picture 0x91#8 [(0x9800, 0x01#8)]) 0 [0, 1, 2, 5, 6, 7] = [0, 2, 3, 3, 2, 0] := by decide
/-- V-PPU-3b. -/
theorem test_background_wraps :
    pixels { picture 0x91#8 [(0x9800, 0x01#8)] with scx := 250#8, scy := 255#8 } 1 [6, 7, 8, 12, 13] =
      [0, 2, 3, 2, 0] := by decide
/-- V-PPU-4: tile indices 0x80, 0x00, 0xFF and 0x7F in signed mode. -/
theorem test_signed_tile_data :
    pixels { launch with
      lcdc := 0x81#8, bgp := 0xE4#8
      mem := [(0x8800, 0xFF#8), (0x8801, 0xFF#8), (0x8FF1, 0xFF#8), (0x9000, 0xFF#8), (0x97F0, 0x0F#8),
              (0x97F1, 0x0F#8), (0x9800, 0x80#8), (0x9802, 0xFF#8), (0x9803, 0x7F#8)] }
      0 [0, 8, 16, 24, 28, 32] = [3, 1, 2, 0, 3, 1] := by decide
/-- V-PPU-5a and V-PPU-5b (the rows of tiles 2 and 3 that are seen). -/
theorem test_window :
    let s := { picture 0xF1#8 [] with
      wy := 2#8, wx := 107#8
      mem := [(0x8020, 0xFF#8), (0x8033, 0xFF#8), (0x8035, 0xFF#8)] ++
        (List.range 8).map (fun c => (0x980C + c, 3#8)) ++ [(0x9C00, 0x02#8)] }
    pixels s 2 [95, 96, 99, 100, 107, 108] = [0, 2, 2, 1, 1, 2] ∧ pixels s 1 [95, 96, 100] = [0, 2, 2] := by
  decide
/-- V-PPU-6. -/
theorem test_lower_x_wins :
    pixels (picture 0x93#8
      [(0xFE00, 16#8), (0xFE01, 11#8), (0xFE02, 2#8), (0xFE04, 16#8), (0xFE05, 8#8), (0xFE06, 2#8),
       (0xFE07, 0x10#8)]) 4 [0, 3, 7, 8, 10, 11] = [2, 2, 2, 1, 1, 0] := by decide
/-- V-PPU-6b. -/
theorem test_equal_x_earlier_wins :
    pixels (picture 0x93#8
      [(0xFE00, 16#8), (0xFE01, 8#8), (0xFE02, 2#8), (0xFE04, 16#8), (0xFE05, 8#8), (0xFE06, 2#8),
       (0xFE07, 0x10#8)]) 4 [0, 7, 8] = [1, 1, 0] := by decide
/-- V-PPU-7a. -/
theorem test_sprite_behind_background :
    pixels (picture 0x93#8
      [(0x9800, 0x01#8), (0xFE00, 16#8), (0xFE01, 8#8), (0xFE02, 2#8), (0xFE03, 0x80#8)])
      0 [0, 1, 2, 6, 7] = [1, 2, 3, 2, 1] := by decide
/-- V-PPU-9a to V-PPU-9d. -/
theorem test_sprite_flips :
    let s := fun attr => picture 0x93#8
      [(0xFE00, 26#8), (0xFE01, 28#8), (0xFE02, 4#8), (0xFE03, attr)]
    pixels (s 0x00#8) 10 [20, 27] = [1, 0] ∧ pixels (s 0x20#8) 10 [20, 27] = [0, 1] ∧
    pixels (s 0x40#8) 17 [20, 27] = [1, 0] ∧ pixels (s 0x60#8) 17 [20, 27] = [0, 1] := by decide
/-- V-PPU-9e and V-PPU-9f: 16-row sprites. -/
theorem test_tall_sprites :
    let s := fun attr => picture 0x97#8
      [(0xFE00, 26#8), (0xFE01, 28#8), (0xFE02, 5#8), (0xFE03, attr)]
    pixels (s 0x00#8) 10 [20, 27] = [1, 0] ∧ pixels (s 0x00#8) 18 [20, 27] = [0, 1] ∧
    pixels (s 0x40#8) 17 [20, 27] = [0, 1] ∧ pixels (s 0x40#8) 25 [20, 27] = [1, 0] := by decide

/-- Eleven sprites on one scanline (V-PPU-8a). -/
def elevenSprites : Memory :=
  (List.range 11).flatMap fun i =>
    [(0xFE00 + 4 * i, 16#8), (0xFE01 + 4 * i, BitVec.ofNat 8 (8 + 8 * i)), (0xFE02 + 4 * i, 2#8)]

/-- V-PPU-8a. -/
theorem test_eleventh_sprite_is_dropped :
    pixels (picture 0x93#8 elevenSprites) 0 [0, 79, 80] = [1, 1, 0] := by decide

/-! Witnesses: for each obligation with hypotheses, states and operands that meet them, clause by clause
and at the ends of each range -/

/-- A NOP at 0x0100: the state most step statements are witnessed on. -/
def nopState : State := launch

/-- A state with an unknown escaped opcode, a stack in work RAM and a canonical memory. -/
def stackState : State := { launch with sp := 0xD000#16 }

theorem test_witness_step_answers : ∃ t, step nopState = .next t := ⟨_, rfl⟩

theorem test_witness_ConstructionChecksLengthAndPlacesImage :
    (List.replicate 0x14F (0xAA#8 : Byte)).length < 0x150 ∧
    0x150 ≤ (List.replicate 0x150 (0xAA#8 : Byte)).length ∧
    (0x7FFF#16 : Word).toNat < 0x8000 ∧ 0x8000 ≤ 0x8000 := by
  rw [List.length_replicate, List.length_replicate]
  decide

theorem test_witness_EveryInstructionCompletesAtItsCost : setsPc .nop = false ∧ setsPc .ret = true := by
  decide

theorem test_witness_StepRunsTheDecodedInstruction :
    nopState.pc ≠ 0x0038#16 ∧ nopState.total ≤ nopState.cfg.watchdogThreshold ∧
    decode [busRead nopState.pc nopState, busRead (nopState.pc + 1#16) nopState,
      busRead (nopState.pc + 2#16) nopState] = .ok (.nop, [0x00#8, 0x00#8]) := ⟨by decide, by decide, rfl⟩

theorem test_witness_WatchdogForcesRestart :
    ({ launch with pc := 0x0038#16 } : State).pc = 0x0038#16 ∧
    ({ launch with total := 50001 } : State).cfg.watchdogThreshold < 50001 := by decide

theorem test_witness_WatchdogIsPermanentPastTheBudget :
    ({ launch with total := 50001 } : State).cfg.watchdogThreshold <
      ({ launch with total := 50001 } : State).total := by decide

theorem test_witness_ImeAfterStep :
    watchdogCondition nopState = false ∧ ∃ t, step nopState = .next t := ⟨by decide, _, rfl⟩

/-- TotalCountsReturnedCosts, ImeSteersNothing and TraceSteersNothing ask for a step that answers. -/
theorem test_witness_TotalCountsReturnedCosts :
    (∃ t, step nopState = .next t) ∧
    ∃ t, step { launch with total := 50001, cfg := { vectorConfig with watchdogAccounts := false } } =
      .next t := ⟨⟨_, rfl⟩, _, rfl⟩

theorem test_witness_ImeSteersNothing : ∃ t, step nopState = .next t := ⟨_, rfl⟩

theorem test_witness_TraceSteersNothing : ∃ t, step { nopState with pc := 0xA000#16 } = .next t := ⟨_, rfl⟩

theorem test_witness_OnlyCompareAndXorWriteFlags :
    (∃ t, exec (.cpN 0x01#8) launch = .next t) ∧ (∃ t, exec .xorA launch = .next t) ∧
    ∃ t, exec .nop launch = .next t := ⟨⟨_, rfl⟩, ⟨_, rfl⟩, _, rfl⟩

theorem test_witness_StepChangesOnlyRamCells :
    (∃ t, step nopState = .next t) ∧ (Region.of 0x0000#16).isRam = false ∧
    (Region.of 0x7FFF#16).isRam = false ∧ (Region.of 0xFF41#16).isRam = false ∧
    (Region.of 0xFFFF#16).isRam = false := ⟨⟨_, rfl⟩, by decide⟩

theorem test_witness_StepKeepsModeMachineInvariant :
    nopState.PpuInv ∧ ∃ t, step nopState = .next t := ⟨by decide, _, rfl⟩

theorem test_witness_StepKeepsFlagNibbleAndMemoryForm :
    (nopState.FlagInv ∧ nopState.mem.wf) ∧ ∃ t, step nopState = .next t := ⟨by decide, _, rfl⟩

theorem test_witness_DecodeInvertsEncode :
    (Instr.ldDeNn 0xBEEF#16).wellFormed = true ∧ (Instr.unknownOpcode 0x70#8).wellFormed = true ∧
    (Instr.escapePrefix.wellFormed = true ∧ (Instr.escapePrefix = .escapePrefix → ([] : List Byte) = [])) :=
  ⟨rfl, rfl, rfl, fun _ => rfl⟩

theorem test_witness_EncodeInvertsDecode :
    decode [0x11#8, 0xEF#8, 0xBE#8, 0x00#8] = .ok (.ldDeNn 0xBEEF#16, [0x00#8]) ∧
    decode [0xCB#8] = .ok (.escapePrefix, []) := ⟨rfl, rfl⟩

theorem test_witness_LoadRegisterCopies : Reg.b ≠ Reg.a := by decide

theorem test_witness_IncrementPairAddsOne : Pair.bc ≠ Pair.sp := by decide

/-- Both forms, in plain storage, at an overlay register and at the ends of the high page. -/
theorem test_witness_StoresWriteOneAddress :
    (∃ nn : Word, Instr.ldMemNnA 0xC000#16 = .ldMemNnA nn ∧ 0xC000#16 = nn) ∧
    (∃ n : Byte, Instr.ldhMemNA 0xFE#8 = .ldhMemNA n ∧ 0xFFFE#16 = BitVec.ofNat 16 (0xFF00 + n.toNat)) ∧
    (∃ n : Byte, Instr.ldhMemNA 0x40#8 = .ldhMemNA n ∧ 0xFF40#16 = BitVec.ofNat 16 (0xFF00 + n.toNat)) ∧
    launch.mem.wf ∧ (Region.of 0xC000#16).isRam = true ∧ (Region.of 0xFFFE#16).isRam = true ∧
    0xC001#16 ≠ 0xC000#16 :=
  ⟨⟨_, rfl, rfl⟩, ⟨_, rfl, by decide⟩, ⟨_, rfl, by decide⟩, by decide⟩

theorem test_witness_LoadsReadOneAddress :
    (∃ nn : Word, Instr.ldAMemNn 0xA000#16 = .ldAMemNn nn ∧ 0xA000#16 = nn) ∧
    (∃ n : Byte, Instr.ldhAMemN 0x00#8 = .ldhAMemN n ∧ 0xFF00#16 = BitVec.ofNat 16 (0xFF00 + n.toNat)) ∧
    (∃ n : Byte, Instr.ldhAMemN 0xFF#8 = .ldhAMemN n ∧ 0xFFFF#16 = BitVec.ofNat 16 (0xFF00 + n.toNat)) ∧
    readMisses 0xA000#16 launch = true ∧ readMisses 0xFF00#16 launch = false :=
  ⟨⟨_, rfl, rfl⟩, ⟨_, rfl, by decide⟩, ⟨_, rfl, by decide⟩, by decide, by decide⟩

theorem test_witness_CallAndRestartPushReturnAddress :
    (∃ nn : Word, Instr.callNn 0x1234#16 = .callNn nn ∧ 0x1234#16 = nn ∧ 0x0103#16 = launch.pc + 3#16) ∧
    (Instr.rst38 = .rst38 ∧ 0x0101#16 = launch.pc + 1#16) ∧
    0x0000#16 ≠ launch.sp - 1#16 ∧ 0x0000#16 ≠ launch.sp - 2#16 :=
  ⟨⟨_, rfl, rfl, by decide⟩, ⟨rfl, by decide⟩, by decide, by decide⟩

theorem test_witness_ReturnsPopTheProgramCounter :
    ({ launch with f := 0x00#8 } : State).f.getLsbD 7 = false ∧ launch.f.getLsbD 7 = true := by decide

theorem test_witness_ReturnUndoesCall :
    stackState.mem.wf ∧ (Region.of (stackState.sp - 1#16)).isRam = true ∧
    (Region.of (stackState.sp - 2#16)).isRam = true ∧ ∃ t, exec (.callNn 0x0200#16) stackState = .next t :=
  ⟨by decide, by decide, by decide, _, rfl⟩

/-- The two ends of every range of R71, and the overlay addresses of R75 at their ends. -/
theorem test_witness_AddressMapIsTheTable :
    Region.of 0x0000#16 = .rom ∧ Region.of 0x7FFF#16 = .rom ∧
    Region.of 0x8000#16 = .vram ∧ Region.of 0x9FFF#16 = .vram ∧
    Region.of 0xA000#16 = .unmapped ∧ Region.of 0xBFFF#16 = .unmapped ∧
    Region.of 0xC000#16 = .wram ∧ Region.of 0xDFFF#16 = .wram ∧
    Region.of 0xE000#16 = .unmapped ∧ Region.of 0xFDFF#16 = .unmapped ∧
    Region.of 0xFE00#16 = .oam ∧ Region.of 0xFE9F#16 = .oam ∧
    Region.of 0xFEA0#16 = .unmapped ∧ Region.of 0xFEFF#16 = .unmapped ∧
    Region.of 0xFF00#16 = .io ∧ Region.of 0xFF0F#16 = .overlay .interruptFlag ∧
    Region.of 0xFF3F#16 = .io ∧ Region.of 0xFF40#16 = .overlay .lcdc ∧
    Region.of 0xFF45#16 = .io ∧ Region.of 0xFF46#16 = .io ∧
    Region.of 0xFF4B#16 = .overlay .wx ∧ Region.of 0xFF4C#16 = .io ∧ Region.of 0xFF7F#16 = .io ∧
    Region.of 0xFF80#16 = .hram ∧ Region.of 0xFFFE#16 = .hram ∧ Region.of 0xFFFF#16 = .interruptEnable := by
  decide

theorem test_witness_RamRoundTrip :
    launch.mem.wf ∧ (Region.of 0x8000#16).isRam = true ∧ (Region.of 0x9FFF#16).isRam = true ∧
    (Region.of 0xFE9F#16).isRam = true ∧ (Region.of 0xFF00#16).isRam = true ∧
    (Region.of 0xFFFE#16).isRam = true := by decide

theorem test_witness_WriteLeavesOtherAddresses :
    0xFF41#16 ≠ 0xFF40#16 ∧ launch.mem.wf ∧
    (Region.of 0xFF40#16 ≠ .rom ∧ Region.of 0xFF40#16 ≠ .unmapped ∧ 0xFF40#16 ≠ 0xFF41#16) ∧
    (Region.of 0xFF45#16 ≠ .rom ∧ Region.of 0xFF45#16 ≠ .unmapped ∧ 0xFF45#16 ≠ 0xFF44#16) ∧
    (Region.of 0xFFFF#16 ≠ .rom ∧ Region.of 0xFFFF#16 ≠ .unmapped) := by decide

theorem test_witness_WriteLeavesOtherCells : 0xFF40 ≠ (0xFF41#16 : Word).toNat := by simp

/-- The statement's ROM clause inside the image and beyond a short one, and its unmapped clause. -/
theorem test_witness_RomAndUnmappedAccesses :
    let short := { launch with cfg := { vectorConfig with romLen := 0x150 } }
    Region.of 0x014F#16 = .rom ∧ (0x014F#16 : Word).toNat < short.cfg.romLen ∧
    Region.of 0x0150#16 = .rom ∧ short.cfg.romLen ≤ (0x0150#16 : Word).toNat ∧
    Region.of 0xA000#16 = .unmapped ∧ Region.of 0xFEFF#16 = .unmapped := by decide

/-- Each clause of the transitions, at its threshold. -/
theorem test_witness_ModeMachineTransitions :
    let at' := fun m ly clk => ({ launch with mode := m, ly := ly, clk := clk } : State)
    (at' .oamScan 0#8 76).clk + 3 < (at' .oamScan 0#8 76).mode.threshold ∧
    80 ≤ (at' .oamScan 0#8 76).clk + 4 ∧ 172 ≤ (at' .drawing 0#8 170).clk + 2 ∧
    204 ≤ (at' .hblank 142#8 200).clk + 4 ∧ (at' .hblank 143#8 200).ly + 1#8 = 144#8 ∧
    (at' .hblank 142#8 200).ly + 1#8 ≠ 144#8 ∧
    (at' .vblank 152#8 452).ly.toNat < 153 ∧ 456 ≤ (at' .vblank 152#8 452).clk + 4 ∧
    (at' .vblank 153#8 452).ly.toNat = 153 ∧ 456 ≤ (at' .vblank 153#8 452).clk + 4 := by decide

theorem test_witness_RenderingLeavesTheRest : (5 : Fin 144).val ≠ launch.ly.toNat := by decide

theorem test_witness_VblankRequestedOnEntry :
    let s := { launch with mode := .hblank, ly := 143#8, clk := 203, stat := 0x00#8 }
    s.mode = .hblank ∧ (advanceClock 1 s).mode = .vblank := by decide

theorem test_witness_OneCycleModeCycle :
    launch.mode = .oamScan ∧ launch.clk = 0 ∧ launch.ly = 0#8 := by decide

theorem test_witness_RenderingWritesOneRow :
    (1 : Fin 144) ≠ 0 ∧ launch.lcdc.getLsbD 7 = false := by decide

theorem test_witness_BackgroundRow :
    let s := picture 0x91#8 []
    s.lcdc.getLsbD 7 = true ∧ s.lcdc.getLsbD 5 = false ∧ s.lcdc.getLsbD 1 = false := by decide

/-- A window pixel of index 0, one of another index, one above the window and one left of it. -/
theorem test_witness_WindowPixelsAreTransparentAtIndexZero :
    let s := { picture 0xF1#8 [(0x9C00, 0x02#8)] with wy := 2#8, wx := 107#8 }
    s.windowCovers 100 2 = true ∧ s.windowColour 100 2 = 1#2 ∧ s.windowCovers 108 2 = true ∧
    s.windowColour 108 2 = 0#2 ∧ s.windowCovers 100 1 = false ∧ s.windowCovers 99 2 = false := by decide

theorem test_witness_WindowPixelsReachTheFrameBuffer :
    let s := picture 0xF1#8 [(0x9C00, 0x02#8)]
    2 < 144 ∧ 100 < 160 ∧ s.lcdc.getLsbD 7 = true ∧ s.lcdc.getLsbD 1 = false := by decide

/-- Eleven sprites cover scanline 0: the eleventh is left out. -/
theorem test_witness_SpriteSelection :
    let s := picture 0x93#8 elevenSprites
    s.selectedSprites 0 = [0, 1, 2, 3, 4, 5, 6, 7, 8, 9] ∧
    (s.mem.get (0xFE00 + 4 * 10)).toNat ≤ 0 + 16 ∧ 0 + 16 < (s.mem.get (0xFE00 + 4 * 10)).toNat + 8 ∧
    10 ∉ s.selectedSprites 0 := by decide

/-- Two overlapping sprites (V-PPU-6): the later one in OAM has the lower X. -/
theorem test_witness_LeftmostOpaqueSpriteWins :
    let s := picture 0x93#8
      [(0xFE00, 16#8), (0xFE01, 11#8), (0xFE02, 2#8), (0xFE04, 16#8), (0xFE05, 8#8), (0xFE06, 2#8),
       (0xFE07, 0x10#8)]
    s.lcdc.getLsbD 7 = true ∧ s.lcdc.getLsbD 1 = true ∧ 1 ∈ s.selectedSprites 4 ∧
    s.spriteCoversColumn 5 1 = true ∧ s.spriteColour 5 4 1 ≠ 0#2 ∧ (s.spriteAttr 1).getLsbD 7 = false ∧
    ∀ j ∈ s.selectedSprites 4, j ≠ 1 → s.spriteCoversColumn 5 j = true → s.spriteColour 5 4 j ≠ 0#2 →
      s.spriteX 1 < s.spriteX j ∨ (s.spriteX 1 = s.spriteX j ∧ 1 < j) := by decide

/-- A sprite on rows 10..17 and columns 20..27: inside at both ends, outside, transparent, opaque, and
behind a painted shade. -/
theorem test_witness_SpritePixelRule :
    let s := picture 0x93#8 [(0xFE00, 26#8), (0xFE01, 28#8), (0xFE02, 4#8), (0xFE03, 0x80#8)]
    let oam := fun k => s.mem.get (0xFE00 + k)
    (oam 0).toNat ≤ 10 + 16 ∧ 10 + 16 < (oam 0).toNat + 8 ∧ 17 + 16 < (oam 0).toNat + 8 ∧
    (oam 1).toNat ≤ 20 + 8 ∧ 27 < (oam 1).toNat ∧ ¬ (oam 1).toNat ≤ 19 + 8 ∧ ¬ 28 < (oam 1).toNat ∧
    s.spriteColour 20 10 0 = 1#2 ∧ s.spriteColour 21 10 0 = 0#2 ∧ (oam 3).getLsbD 7 = true ∧
    (3#2 : Shade) ≠ 0#2 := by decide

theorem test_witness_CompositorReadsStayInVram :
    (255 < 256 ∧ 255 < 256 ∧ 7 < 8) ∧
    (picture 0x97#8 [(0xFE00, 16#8), (0xFE02, 0xFF#8)]).spriteCovers 15 0 = true ∧
    (picture 0x97#8 [(0xFE00, 16#8), (0xFE02, 0xFF#8)]).spriteRowOffset 15 0 + 1 = 4095 := by decide

/-- Two memories that differ outside VRAM and OAM only. -/
theorem test_witness_RowsDependOnVramAndOamOnly :
    ∀ k, 0x8000 ≤ k ∧ k < 0xA000 ∨ 0xFE00 ≤ k ∧ k < 0xFEA0 →
      Memory.get [(0xC000, 0x42#8)] k = Memory.get launch.mem k := by
  intro k hk
  exact Memory.get_unlisted _ _ fun p hp => by
    have : p = (0xC000, 0x42#8) := by simpa using hp
    subst this
    simp only
    omega

theorem test_witness_RowEntryIsSpritesOverWindowOverBackground :
    (picture 0x93#8 []).lcdc.getLsbD 7 = true ∧ (picture 0x93#8 []).lcdc.getLsbD 1 = true ∧
    (picture 0x91#8 []).lcdc.getLsbD 7 = true ∧ (picture 0x91#8 []).lcdc.getLsbD 1 = false := by decide

/-! Memory in canonical form -/

theorem test_reset_memory_is_canonical : State.reset.mem.wf := by decide

/-- A write of the blank byte removes the entry, and a write in the middle keeps the order. -/
theorem test_write_keeps_the_form :
    Memory.set [(1, 0x11#8), (3, 0x33#8)] 2 0x22#8 = [(1, 0x11#8), (2, 0x22#8), (3, 0x33#8)] ∧
    Memory.set [(1, 0x11#8), (3, 0x33#8)] 3 0x00#8 = [(1, 0x11#8)] := by decide

/-- The host's placing of an instruction, run as the first one after reset (assumption 8). -/
theorem test_first_instruction_after_reset :
    fetchedInstr (State.reset.withFetchWord 24 0x0150C3) = .jpNn 0x0150#16 ∧
    fetchedInstr (State.reset.withFetchWord 8 0x87) = .res0A ∧
    fetchedInstr (State.reset.withFetchWord 16 0xCB37) = .unknownEscapedOpcode 0x37#8 := by
  and_intros <;> rfl

end Sys2Proof.Tests
end

section
/-! The bus read (20_memory.md): it leaves every component but the trace as it was, so it also leaves every
later read as it was. -/

namespace Sys2Proof.Machine

/-- A bus read replaces the trace and nothing else, whether it misses or not (R76, R80). -/
theorem noteRead_changes_trace_only (addr : Word) (s : State) :
    noteRead addr s = { s with trace := (noteRead addr s).trace } := by
  unfold noteRead
  split
  case isTrue => rfl
  case isFalse => rfl

/-- Settles O44: the first read only reports itself in the trace, and no read looks at the trace. -/
theorem readsAreIdempotent : Obligations.ReadsAreIdempotent := by
  intro s a
  exact ⟨noteRead_changes_trace_only a s, (busAgree_noteRead a s).sameReads⟩

end Sys2Proof.Machine
end

section
/-! Control transfer (41_control_transfer.md). -/

namespace Sys2Proof.Machine

/-- `JP nn` runs as one absolute jump, whose cost is 16 (R161). -/
theorem exec_jpNn (nn : Word) (s : State) : exec (.jpNn nn) s = .next (s.jump nn 16#8) := rfl

/-- Settles O33: `JP nn` is one jump, and a jump writes the pc and the cost only. -/
theorem jumpAbsoluteSetsPc : Obligations.JumpAbsoluteSetsPc := by
  intro s nn
  rw [exec_jpNn, State.jump]

end Sys2Proof.Machine
end

section
/-! Arithmetic and logic (43_alu_bit.md). -/

namespace Sys2Proof.Machine

/-- `CP n` writes the flags of its comparison, then ends as a 2-byte instruction of cost 8 (R200). -/
theorem exec_cpN (n : Byte) (s : State) :
    exec (.cpN n) s = .next ({ s with f := compareFlags s.a n }.advance 2#16 8#8) := rfl

/-- `XOR A` combines A with itself, then ends as a 1-byte instruction of cost 4 (R201). -/
theorem exec_xorA (s : State) :
    exec .xorA s = .next ({ s with a := s.a ^^^ s.a, f := xorSelfFlags }.advance 1#16 4#8) := rfl

/-- The flags of a comparison as bytes: bit 7 is Zero, and every other bit is clear (R200). -/
theorem compareFlags_eq (x y : Byte) : compareFlags x y = if x = y then 0x80#8 else 0x00#8 := rfl

/-- The flags of `XOR A` as a byte: Zero alone (R201). -/
theorem xorSelfFlags_eq : xorSelfFlags = 0x80#8 := rfl

/-- Settles O32: CP's flags are those of one comparison, and a byte combined with itself is 0. -/
theorem compareAndXorResults : Obligations.CompareAndXorResults := by
  intro s n
  constructor
  · rw [exec_cpN, compareFlags_eq, State.advance]
  · rw [exec_xorA, BitVec.xor_self, xorSelfFlags_eq, State.advance]

end Sys2Proof.Machine
end

section
/-! The mode cycle at one cycle per call (45_ppu_mode_machine.md). A frame is 154 scanlines of 456
cycles. A call goes to the next cycle of the scanline, from the last cycle to the next scanline, and from
the last scanline to scanline 0. -/

namespace Sys2Proof.Machine

/-! One call of `advance` -/

/-- Below the threshold a call only counts (R231). -/
theorem advanceClock_of_below_threshold {c : Nat} {s : State} (h : s.clk + c < s.mode.threshold) :
    advanceClock c s = { s with clk := s.clk + c } := if_neg (Nat.not_le.mpr h)

/-- From the threshold on a call makes the mode's transition (R231). -/
theorem advanceClock_of_threshold_reached {c : Nat} {s : State} (h : s.mode.threshold ≤ s.clk + c) :
    advanceClock c s = transition { s with clk := s.clk + c } := if_pos h

/-- Rendering a scanline leaves the mode machine as it was (R250). -/
@[simp] theorem renderScanline_modeMachine (y : Nat) (s : State) :
    (renderScanline y s).mode = s.mode ∧ (renderScanline y s).clk = s.clk ∧
    (renderScanline y s).ly = s.ly := by
  unfold renderScanline
  split
  case isTrue => and_intros <;> rfl
  case isFalse => and_intros <;> rfl

/-- Mode `m` has just begun on scanline `ly`: the mode clock is 0 (R232). -/
def Entered (m : PpuMode) (ly : Byte) (t : State) : Prop := t.mode = m ∧ t.clk = 0 ∧ t.ly = ly

theorem entered_enterMode (m : PpuMode) (s : State) : Entered m s.ly (enterMode m s) := by
  simp [Entered]

/-- OAMScan is followed by Drawing on the same scanline (R232). -/
theorem transition_of_oamScan {s : State} (hm : s.mode = .oamScan) :
    Entered .drawing s.ly (transition s) := by
  simp only [transition, hm]
  exact entered_enterMode .drawing s

/-- Drawing is followed by HBlank on the same scanline (R233). -/
theorem transition_of_drawing {s : State} (hm : s.mode = .drawing) :
    Entered .hblank s.ly (transition s) := by
  simp [transition, hm, leaveDrawing, Entered]

/-- HBlank is followed by the next scanline, which is in V-Blank exactly when it is scanline 144 (R234). -/
theorem transition_of_hblank {s : State} (hm : s.mode = .hblank) :
    Entered (if s.ly + 1#8 = 144#8 then .vblank else .oamScan) (s.ly + 1#8) (transition s) := by
  simp only [transition, hm, leaveHblank, firstVblankLine]
  split
  case isTrue => exact entered_enterMode .vblank _
  case isFalse => exact entered_enterMode .oamScan _

/-- A V-Blank scanline before the last is followed by the next one (R235). -/
theorem transition_of_vblank {s : State} (hm : s.mode = .vblank) (h : (s.ly + 1#8).toNat ≤ 153) :
    Entered .vblank (s.ly + 1#8) (transition s) := by
  have notPast : ¬ lastLine.toNat < (s.ly + 1#8).toNat := Nat.not_lt.mpr h
  simp only [transition, hm, leaveVblankLine, if_neg notPast]
  exact entered_enterMode .vblank _

/-- The last V-Blank scanline is followed by scanline 0 in OAMScan (R235). -/
theorem transition_of_lastLine {s : State} (hm : s.mode = .vblank) (h : s.ly = lastLine) :
    Entered .oamScan 0#8 (transition s) := by
  simp only [transition, hm, leaveVblankLine, h]
  exact entered_enterMode .oamScan { s with ly := 0#8 }

/-- A call returns frame-complete when HBlank reaches its threshold and scanline 144 is next (R231, R234). -/
theorem frameComplete_eq_true_iff (c : Nat) (s : State) :
    frameComplete c s = true ↔ s.mode = .hblank ∧ 204 ≤ s.clk + c ∧ s.ly + 1#8 = 144#8 := by
  rw [frameComplete, Bool.and_eq_true, Bool.and_eq_true, beq_iff_eq, beq_iff_eq, decide_eq_true_iff,
    and_assoc]
  rfl

/-! A cycle of a frame -/

/-- The mode in cycle `k` of scanline `y` (R237). -/
def lineMode (y k : Nat) : PpuMode :=
  if 144 ≤ y then .vblank else if k < 80 then .oamScan else if k < 252 then .drawing else .hblank

/-- The cycle of a scanline in which a mode begins (R237). -/
def PpuMode.lineStart (m : PpuMode) : Nat :=
  match m with
  | .oamScan => 0
  | .drawing => 80
  | .hblank => 252
  | .vblank => 0

/-- The mode machine is in cycle `k` of scanline `y`. -/
structure AtCycle (y k : Nat) (s : State) : Prop where
  mode : s.mode = lineMode y k
  clk : s.mode.lineStart + s.clk = k
  ly : s.ly = BitVec.ofNat 8 y

theorem lineMode_of_visible {y : Nat} (hy : y < 144) (k : Nat) :
    lineMode y k = if k < 80 then .oamScan else if k < 252 then .drawing else .hblank :=
  if_neg (Nat.not_le.mpr hy)

theorem lineMode_of_vblank {y : Nat} (hy : 144 ≤ y) (k : Nat) : lineMode y k = .vblank := if_pos hy

/-- Within a scanline the next cycle is in the same mode, below its threshold, or it is the first of
Drawing or of HBlank. -/
theorem lineMode_succ (y k : Nat) (hk : k + 1 < 456) :
    (lineMode y (k + 1) = lineMode y k ∧ k + 1 < (lineMode y k).lineStart + (lineMode y k).threshold) ∨
    (k + 1 = 80 ∧ lineMode y k = .oamScan ∧ lineMode y (k + 1) = .drawing) ∨
    (k + 1 = 252 ∧ lineMode y k = .drawing ∧ lineMode y (k + 1) = .hblank) := by
  by_cases hy : 144 ≤ y
  · simpa [lineMode_of_vblank hy, PpuMode.lineStart, PpuMode.threshold] using hk
  simp only [lineMode_of_visible (Nat.not_le.mp hy)]
  obtain scan | rfl | draw | rfl | blank :
      k + 1 < 80 ∨ k = 79 ∨ (80 ≤ k ∧ k + 1 < 252) ∨ k = 251 ∨ 252 ≤ k := by omega
  · simp [PpuMode.lineStart, PpuMode.threshold, scan, show k < 80 by omega]
  · simp
  · simp [PpuMode.lineStart, PpuMode.threshold, draw, show ¬ k + 1 < 80 by omega,
      show ¬ k < 80 by omega, show k < 252 by omega]
  · simp
  · simpa [PpuMode.lineStart, PpuMode.threshold, show ¬ k + 1 < 252 by omega, show ¬ k + 1 < 80 by omega,
      show ¬ k < 252 by omega, show ¬ k < 80 by omega] using hk

/-- A scanline's number as a byte is 144 at scanline 144 only. -/
theorem scanline_eq_144_iff {y : Nat} (hy : y < 256) : BitVec.ofNat 8 y = 144#8 ↔ y = 144 := by
  rw [← BitVec.toNat_inj]
  simp [Nat.mod_eq_of_lt hy]

namespace AtCycle

variable {y k : Nat} {s : State}

/-- A mode that has just begun is in the cycle of the scanline in which it begins. -/
theorem of_entered {m : PpuMode} (h : Entered m (BitVec.ofNat 8 y) s) (hm : lineMode y k = m)
    (hk : m.lineStart = k) : AtCycle y k s := by
  obtain ⟨mode, clk, ly⟩ := h
  exact ⟨mode.trans hm.symm, by rw [mode, clk, hk, Nat.add_zero], ly⟩

/-- A call below the threshold stays in the mode. -/
theorem advanceClock_counts (h : AtCycle y k s) (same : lineMode y (k + 1) = lineMode y k)
    (below : k + 1 < (lineMode y k).lineStart + (lineMode y k).threshold) :
    AtCycle y (k + 1) (advanceClock 1 s) := by
  obtain ⟨hm, hc, hl⟩ := h
  rw [← hm] at same below
  rw [advanceClock_of_below_threshold (by omega)]
  exact ⟨same.symm, by simp only; omega, hl⟩

/-- A call that reaches the threshold makes the transition of the cycle's mode, on its scanline. -/
theorem advanceClock_transitions (h : AtCycle y k s)
    (reached : (lineMode y k).lineStart + (lineMode y k).threshold = k + 1) :
    ∃ t : State, advanceClock 1 s = transition t ∧ t.mode = lineMode y k ∧ t.ly = BitVec.ofNat 8 y := by
  obtain ⟨hm, hc, hl⟩ := h
  rw [← hm] at reached
  exact ⟨_, advanceClock_of_threshold_reached (by omega), hm, hl⟩

/-- Within a scanline a call goes to the next cycle (R231 to R233). -/
theorem next_cycle (h : AtCycle y k s) (hk : k + 1 < 456) : AtCycle y (k + 1) (advanceClock 1 s) := by
  obtain ⟨same, below⟩ | ⟨h80, hm, hm'⟩ | ⟨h252, hm, hm'⟩ := lineMode_succ y k hk
  · exact h.advanceClock_counts same below
  · obtain ⟨t, ht, tm, tl⟩ := h.advanceClock_transitions (by rw [hm, h80]; rfl)
    exact ht ▸ of_entered (tl ▸ transition_of_oamScan (tm.trans hm)) hm' h80.symm
  · obtain ⟨t, ht, tm, tl⟩ := h.advanceClock_transitions (by rw [hm, h252]; rfl)
    exact ht ▸ of_entered (tl ▸ transition_of_drawing (tm.trans hm)) hm' h252.symm

/-- The last cycle of a scanline before V-Blank is followed by the first of the next scanline (R234). -/
theorem next_line_of_visible (h : AtCycle y 455 s) (hy : y < 144) :
    AtCycle (y + 1) 0 (advanceClock 1 s) := by
  have hm : lineMode y 455 = .hblank := lineMode_of_visible hy 455
  obtain ⟨t, ht, tm, tl⟩ := h.advanceClock_transitions (by rw [hm]; rfl)
  have entered := transition_of_hblank (tm.trans hm)
  rw [tl, ← BitVec.ofNat_add] at entered
  by_cases h143 : y = 143
  · subst h143
    exact ht ▸ of_entered entered rfl rfl
  · rw [if_neg (by rw [scanline_eq_144_iff (by omega)]; omega)] at entered
    exact ht ▸ of_entered entered (lineMode_of_visible (by omega) 0) rfl

/-- The last cycle of a V-Blank scanline but the last is followed by the first of the next (R235). -/
theorem next_line_of_vblank (h : AtCycle y 455 s) (hy : 144 ≤ y) (hy' : y < 153) :
    AtCycle (y + 1) 0 (advanceClock 1 s) := by
  have hm := lineMode_of_vblank hy 455
  obtain ⟨t, ht, tm, tl⟩ := h.advanceClock_transitions (by rw [hm]; rfl)
  have next : t.ly + 1#8 = BitVec.ofNat 8 (y + 1) := by rw [tl, BitVec.ofNat_add]
  have entered := transition_of_vblank (tm.trans hm) (by rw [next, BitVec.toNat_ofNat]; omega)
  exact ht ▸ of_entered (next ▸ entered) (lineMode_of_vblank (by omega) 0) rfl

/-- The last cycle of scanline 153 is followed by the first of scanline 0 (R235). -/
theorem next_frame (h : AtCycle 153 455 s) : AtCycle 0 0 (advanceClock 1 s) := by
  obtain ⟨t, ht, tm, tl⟩ := h.advanceClock_transitions rfl
  exact ht ▸ of_entered (transition_of_lastLine tm tl) rfl rfl

/-- The one call of a frame that returns frame-complete is that of the last cycle of scanline 143 (R234,
R237). -/
theorem frameComplete_iff (h : AtCycle y k s) (hy : y < 154) (hk : k < 456) :
    frameComplete 1 s = true ↔ y = 143 ∧ k = 455 := by
  obtain ⟨hm, hc, hl⟩ := h
  have line : s.ly + 1#8 = 144#8 ↔ y = 143 := by
    rw [hl, ← BitVec.ofNat_add, scanline_eq_144_iff (by omega)]
    omega
  have clk : s.mode = .hblank → 252 + s.clk = k := fun hblank => by rwa [hblank] at hc
  rw [frameComplete_eq_true_iff, line]
  constructor
  · rintro ⟨hblank, reached, rfl⟩
    have := clk hblank
    exact ⟨rfl, by omega⟩
  · rintro ⟨rfl, rfl⟩
    have := clk hm
    exact ⟨hm, by omega, rfl⟩

end AtCycle

/-! A run of such calls -/

/-- The number of frame-complete signals that a frame has given by scanline `y` (R237). -/
def signalsByLine (y : Nat) : Nat := if y < 144 then 0 else 1

/-- The signal comes between scanlines 143 and 144. -/
theorem signalsByLine_succ (y : Nat) :
    signalsByLine (y + 1) = if y = 143 then signalsByLine y + 1 else signalsByLine y := by
  unfold signalsByLine
  obtain before | rfl | after : y < 143 ∨ y = 143 ∨ 144 ≤ y := by omega
  · simp [before, show y < 144 by omega, show y ≠ 143 by omega]
  · rfl
  · simp [show ¬ y + 1 < 144 by omega, show ¬ y < 144 by omega, show y ≠ 143 by omega]

/-- After a run of calls the mode machine is in cycle `k` of scanline `y` of the first frame. -/
structure RunAtCycle (y k n : Nat) (s : State) : Prop where
  atCycle : AtCycle y k (oneCycleRun n s).1
  frames : (oneCycleRun n s).2 = signalsByLine y

/-- One more call: `advance(1)` on the state, and its signal on the count. -/
theorem oneCycleRun_succ (n : Nat) (s : State) :
    oneCycleRun (n + 1) s =
      (advanceClock 1 (oneCycleRun n s).1,
        if frameComplete 1 (oneCycleRun n s).1 then (oneCycleRun n s).2 + 1 else (oneCycleRun n s).2) := rfl

namespace RunAtCycle

variable {y k n : Nat} {s : State}

/-- A run goes on by one call: to the cycle that the call leads to, with the signal of that call. -/
theorem extend {y' k' : Nat} (h : RunAtCycle y k n s) (hy : y < 154) (hk : k < 456)
    (next : AtCycle y' k' (advanceClock 1 (oneCycleRun n s).1))
    (count : signalsByLine y' = if y = 143 ∧ k = 455 then signalsByLine y + 1 else signalsByLine y) :
    RunAtCycle y' k' (n + 1) s where
  atCycle := next
  frames := by simp only [oneCycleRun_succ, h.atCycle.frameComplete_iff hy hk, h.frames, count]

/-- From the first cycle of a scanline to any cycle of it. -/
theorem along_line (h : RunAtCycle y 0 n s) (hy : y < 154) (hk : k < 456) :
    RunAtCycle y k (n + k) s := by
  induction k with
  | zero => exact h
  | succ k ih =>
    have here := ih (by omega)
    exact here.extend hy (by omega) (here.atCycle.next_cycle hk) (by simp; omega)

/-- From the first cycle of a scanline but the last to the first cycle of the next. -/
theorem next_line (h : RunAtCycle y 0 n s) (hy : y < 153) : RunAtCycle (y + 1) 0 (n + 456) s := by
  have last : RunAtCycle y 455 (n + 455) s := h.along_line (by omega) (by omega)
  refine last.extend (by omega) (by omega) ?_ (by simp [signalsByLine_succ])
  by_cases visible : y < 144
  · exact last.atCycle.next_line_of_visible visible
  · exact last.atCycle.next_line_of_vblank (by omega) hy

/-- From the first cycle of scanline 0 to the first cycle of any scanline. -/
theorem line_start (h : RunAtCycle 0 0 0 s) (hy : y < 154) : RunAtCycle y 0 (456 * y) s := by
  induction y with
  | zero => exact h
  | succ y ih => exact (ih (by omega)).next_line (by omega)

/-- From the last cycle of scanline 153 to the first cycle of scanline 0, with one signal in all. -/
theorem next_frame (h : RunAtCycle 153 455 n s) :
    AtCycle 0 0 (oneCycleRun (n + 1) s).1 ∧ (oneCycleRun (n + 1) s).2 = 1 := by
  refine ⟨h.atCycle.next_frame, ?_⟩
  simp [oneCycleRun_succ, h.atCycle.frameComplete_iff, h.frames, signalsByLine]

end RunAtCycle

/-- Settles O48: by induction over the scanlines of a frame and over the cycles of each. -/
theorem oneCycleModeCycle : Obligations.OneCycleModeCycle := by
  intro s hm hc hl
  have clk0 : s.mode.lineStart + s.clk = 0 := by rw [hm, hc]; rfl
  have start : RunAtCycle 0 0 0 s := ⟨⟨hm, clk0, hl⟩, rfl⟩
  have cycle : ∀ y k, y < 154 → k < 456 → RunAtCycle y k (456 * y + k) s :=
    fun y k hy hk => (start.line_start hy).along_line hy hk
  refine ⟨fun y k hy hk => ?_, fun y k hy hy' hk => ?_, ?_⟩
  · obtain ⟨⟨mode, -, ly⟩, frames⟩ := cycle y k (by omega) hk
    exact ⟨ly, frames.trans (if_pos hy), mode.trans (lineMode_of_visible hy k)⟩
  · obtain ⟨⟨mode, -, ly⟩, frames⟩ := cycle y k hy' hk
    exact ⟨ly, frames.trans (if_neg (by omega)), mode.trans (lineMode_of_vblank hy k)⟩
  · obtain ⟨⟨mode, clk, ly⟩, frames⟩ := (cycle 153 455 (by omega) (by omega)).next_frame
    rw [mode] at clk
    exact ⟨ly, frames, mode, (Nat.zero_add _).symm.trans clk⟩

end Sys2Proof.Machine
end

section
/-! The drawing order of the sprites (46_ppu_compositing.md, R264): the insertion sort is stable
because it inserts the sprites from the last to the first, so each one is earlier in OAM than all that
stand in the list already. -/

namespace Sys2Proof.Machine

/-- Ascending by key, and by number among equal keys: the order that a stable sort of ascending numbers
gives. -/
def KeyOrder (key : Nat → Nat) (i j : Nat) : Prop := key i < key j ∨ (key i = key j ∧ i < j)

theorem KeyOrder.of_key_le {key : Nat → Nat} {i j : Nat} (hkey : key i ≤ key j) (hij : i < j) :
    KeyOrder key i j :=
  (Nat.lt_or_eq_of_le hkey).imp_right fun heq => ⟨heq, hij⟩

theorem KeyOrder.key_le {key : Nat → Nat} {i j : Nat} (h : KeyOrder key i j) : key i ≤ key j :=
  h.elim Nat.le_of_lt fun ⟨heq, _⟩ => Nat.le_of_eq heq

/-- Inserting a number below all in an ordered list keeps the list ordered. -/
theorem insertByKey_keepsOrder {key : Nat → Nat} {i : Nat} {sorted : List Nat}
    (least : ∀ j ∈ sorted, i < j) (ordered : sorted.Pairwise (KeyOrder key)) :
    (insertByKey key i sorted).Pairwise (KeyOrder key) := by
  induction sorted with
  | nil => exact List.pairwise_singleton _ i
  | cons j rest ih =>
    obtain ⟨headFirst, restOrdered⟩ := List.pairwise_cons.mp ordered
    obtain ⟨-, leastRest⟩ := List.forall_mem_cons.mp least
    unfold insertByKey
    split
    case isTrue hkey =>
      refine List.pairwise_cons.mpr ⟨fun k hk => .of_key_le ?_ (least k hk), ordered⟩
      obtain rfl | hk := List.mem_cons.mp hk
      · exact hkey
      · exact Nat.le_trans hkey (headFirst k hk).key_le
    case isFalse hkey =>
      refine List.pairwise_cons.mpr ⟨fun k hk => ?_, ih leastRest restOrdered⟩
      obtain rfl | hk := List.mem_cons.mp ((insertByKey_perm key i rest).mem_iff.mp hk)
      · exact .inl (Nat.lt_of_not_le hkey)
      · exact headFirst k hk

/-- The sort of an ascending list is stable. -/
theorem sortByKey_ordered (key : Nat → Nat) {l : List Nat} (ascending : l.Pairwise (· < ·)) :
    (sortByKey key l).Pairwise (KeyOrder key) := by
  induction l with
  | nil => exact .nil
  | cons i rest ih =>
    obtain ⟨least, restAscending⟩ := List.pairwise_cons.mp ascending
    have leastSorted : ∀ j ∈ sortByKey key rest, i < j :=
      fun j hj => least j ((sortByKey_perm key rest).mem_iff.mp hj)
    exact insertByKey_keepsOrder leastSorted (ih restAscending)

/-- The selection is in OAM order (R263). -/
theorem selectedSprites_ascending (s : State) (y : Nat) : (s.selectedSprites y).Pairwise (· < ·) :=
  (List.pairwise_lt_range.filter _).take

/-- Settles O54: the sort keeps the elements, and it is stable on the selection, which is in OAM order. -/
theorem spriteSortIsStable : Obligations.SpriteSortIsStable := fun s y =>
  ⟨sortByKey_perm s.spriteX _, sortByKey_ordered s.spriteX (selectedSprites_ascending s y)⟩

end Sys2Proof.Machine
end

section
/-! The codec (30_encoding.md, R110 to R121): encoding and decoding invert each other. An opcode byte is
the concatenation of its fields, so a row with a register or pair field is encoded by the codes that the
decoder read. -/

namespace Sys2Proof

open Machine (lowByte_wordOfBytes highByte_wordOfBytes wordOfBytes_bytes)

/-! Register and pair codes, and the fields of a byte -/

/-- The 3-bit code of a register (R113). -/
def Reg.code (r : Reg) : BitVec 3 :=
  match r with
  | .b => 0#3
  | .c => 1#3
  | .d => 2#3
  | .e => 3#3
  | .h => 4#3
  | .l => 5#3
  | .a => 7#3

/-- The 2-bit code of a pair (R114). -/
def Pair.code (p : Pair) : BitVec 2 :=
  match p with
  | .bc => 0#2
  | .de => 1#2
  | .hl => 2#2
  | .sp => 3#2

theorem Reg.code_of_ofCode {c : BitVec 3} {r : Reg} (h : Reg.ofCode c = some r) : c = r.code := by
  revert h; revert c; cases r <;> decide

theorem Pair.code_ofCode (c : BitVec 2) : (Pair.ofCode c).code = c := by
  revert c; decide

/-- A byte is `gg ddd sss` (R112). -/
theorem opcode_eq_fields (op : Byte) : op = opGroup op ++ opField53 op ++ opField20 op := by
  revert op; decide

/-- A byte is `gg pp nnnn` (R112). -/
theorem opcode_eq_pairFields (op : Byte) : op = opGroup op ++ opField54 op ++ opField30 op := by
  revert op; decide

/-! What a row is encoded as, by the codes of its fields -/

/-- The bytes are those of the well-formed instruction, which is as long as its opcode byte says. -/
def EncodesTo (i : Instr) (op b1 b2 : Byte) : Prop :=
  encode i = [op, b1, b2].take (1 + operandBytes op) ∧ i.wellFormed = true

theorem ldRegReg_encodesTo (dst src : Reg) (b1 b2 : Byte) :
    EncodesTo (.ldRegReg dst src) (1#2 ++ dst.code ++ src.code) b1 b2 := by
  cases dst <;> cases src <;> exact ⟨rfl, rfl⟩

theorem ldRegImm_encodesTo (dst : Reg) (b1 b2 : Byte) :
    EncodesTo (.ldRegImm dst b1) (0#2 ++ dst.code ++ 6#3) b1 b2 := by
  cases dst <;> exact ⟨rfl, rfl⟩

theorem lowHigh_wordOfBytes (hi lo : Byte) :
    [lowByte (wordOfBytes hi lo), highByte (wordOfBytes hi lo)] = [lo, hi] := by simp

theorem ldPairImm_encodesTo (p : Pair) (b1 b2 : Byte) :
    EncodesTo (.ldPairImm p (wordOfBytes b2 b1)) (0#2 ++ p.code ++ 1#4) b1 b2 := by
  cases p <;> exact ⟨congrArg (_ :: ·) (lowHigh_wordOfBytes b2 b1), rfl⟩

theorem incPair_encodesTo (p : Pair) (b1 b2 : Byte) :
    EncodesTo (.incPair p) (0#2 ++ p.code ++ 3#4) b1 b2 := by
  cases p <;> exact ⟨rfl, rfl⟩

/-! Encoding inverts decoding -/

/-- Which opcode bytes have a row does not depend on the operand bytes (R110). -/
theorem decodeExact_eq_none_iff (op b1 b2 : Byte) :
    decodeExact op b1 b2 = none ↔ decodeExact op 0#8 0#8 = none := by
  unfold decodeExact
  split <;> simp

theorem decodeFields_eq_none_iff (op b1 b2 : Byte) :
    decodeFields op b1 b2 = none ↔ decodeFields op 0#8 0#8 = none := by
  unfold decodeFields
  split
  · exact Iff.rfl
  · split
    · simp
    · split <;> simp
  · exact Iff.rfl

theorem decodeExact_encodesTo {op b1 b2 : Byte} {i : Instr} (h : decodeExact op b1 b2 = some i) :
    EncodesTo i op b1 b2 := by
  unfold decodeExact at h
  split at h <;> cases h
  all_goals
    refine ⟨?_, rfl⟩
    simp only [encode, lowByte_wordOfBytes, highByte_wordOfBytes]
    rfl

theorem decodeFields_encodesTo {op b1 b2 : Byte} {i : Instr} (h : decodeFields op b1 b2 = some i) :
    EncodesTo i op b1 b2 := by
  unfold decodeFields at h
  split at h
  case h_1 group =>
    split at h <;> cases h
    case h_1 dst src hdst hsrc =>
      rw [opcode_eq_fields op, group, Reg.code_of_ofCode hdst, Reg.code_of_ofCode hsrc]
      exact ldRegReg_encodesTo dst src b1 b2
  case h_2 group =>
    split at h
    case isTrue imm =>
      obtain ⟨dst, hdst, rfl⟩ := Option.map_eq_some_iff.mp h
      rw [opcode_eq_fields op, group, imm, Reg.code_of_ofCode hdst]
      exact ldRegImm_encodesTo dst b1 b2
    case isFalse =>
      split at h
      case isTrue load =>
        cases h
        have := ldPairImm_encodesTo (.ofCode (opField54 op)) b1 b2
        rwa [Pair.code_ofCode, ← group, ← load, ← opcode_eq_pairFields] at this
      case isFalse =>
        split at h <;> cases h
        case isTrue inc =>
          have := incPair_encodesTo (.ofCode (opField54 op)) b1 b2
          rwa [Pair.code_ofCode, ← group, ← inc, ← opcode_eq_pairFields] at this
  case h_3 => cases h

/-- A byte that no named row claims is one byte long (R222). -/
theorem unknownOpcode_encodesTo {op b1 b2 : Byte} (hop : op ≠ escapeByte)
    (hexact : decodeExact op b1 b2 = none) (hfields : decodeFields op b1 b2 = none) :
    EncodesTo (.unknownOpcode op) op b1 b2 := by
  rw [decodeExact_eq_none_iff] at hexact
  rw [decodeFields_eq_none_iff] at hfields
  have unknown : isUnknownOpcode op = true := by
    revert op; decide
  exact ⟨by rw [(decodeBytes_unknown op unknown).1]; rfl, unknown⟩

theorem decodeUnprefixed_encodesTo {op : Byte} (b1 b2 : Byte) (hop : op ≠ escapeByte) :
    EncodesTo (decodeUnprefixed op b1 b2) op b1 b2 := by
  unfold decodeUnprefixed
  cases hexact : decodeExact op b1 b2 with
  | some i => exact decodeExact_encodesTo hexact
  | none =>
    cases hfields : decodeFields op b1 b2 with
    | some i => exact decodeFields_encodesTo hfields
    | none => exact unknownOpcode_encodesTo hop hexact hfields

theorem decodeEscaped_encodesTo (op2 b2 : Byte) : EncodesTo (decodeEscaped op2) escapeByte op2 b2 := by
  have table : ∀ op2, encode (decodeEscaped op2) = [escapeByte, op2] ∧
      (decodeEscaped op2).wellFormed = true := by decide
  exact table op2

/-- What three bytes decode to is encoded as those of them that the opcode byte asks for. -/
theorem decodeBytes_encodesTo (op b1 b2 : Byte) : EncodesTo (decodeBytes op b1 b2) op b1 b2 := by
  unfold decodeBytes
  split
  case isTrue hop => exact hop ▸ decodeEscaped_encodesTo b1 b2
  case isFalse hop => exact decodeUnprefixed_encodesTo b1 b2 hop

/-- The answers of the decoder: an instruction of one, two or three bytes, or the bare escape byte at
the very end of the bytes. -/
theorem decode_cases {bytes rest : List Byte} {i : Instr} (h : decode bytes = .ok (i, rest)) :
    (∃ op b1 b2, i = decodeBytes op b1 b2 ∧ bytes = [op, b1, b2].take (1 + operandBytes op) ++ rest) ∨
    (i = .escapePrefix ∧ bytes = [escapeByte] ∧ rest = []) := by
  unfold decode at h
  split at h
  case h_1 => cases h
  case h_2 op _ =>
    split at h
    case h_1 len => cases h; exact .inl ⟨op, _, _, rfl, by rw [len]; rfl⟩
    case h_2 len => cases h; exact .inl ⟨op, _, _, rfl, by rw [len]; rfl⟩
    case h_3 len => cases h; exact .inl ⟨op, _, _, rfl, by rw [len]; rfl⟩
    case h_4 bytes _ _ _ notOne _ =>
      split at h <;> cases h
      case isTrue hop =>
        cases bytes with
        | nil => exact .inr ⟨rfl, by rw [hop], rfl⟩
        | cons b1 bytes => exact (notOne b1 bytes (by rw [hop]; rfl) rfl).elim

/-- Settles O20: what the decoder answers is encoded as the bytes it took. -/
theorem encodeInvertsDecode : Obligations.EncodeInvertsDecode := by
  intro bytes rest i h
  obtain ⟨op, b1, b2, rfl, rfl⟩ | ⟨rfl, rfl, rfl⟩ := decode_cases h
  · obtain ⟨encoded, wf⟩ := decodeBytes_encodesTo op b1 b2
    exact ⟨congrArg (· ++ rest) encoded, wf⟩
  · exact ⟨rfl, rfl⟩

/-! Decoding inverts encoding -/

/-- A word is made of its two bytes. -/
theorem exists_bytes (nn : Word) : ∃ hi lo, nn = wordOfBytes hi lo :=
  ⟨highByte nn, lowByte nn, (wordOfBytes_bytes nn).symm⟩

/-- Settles O19: row by row. The operand of a wide row is its two bytes put together again, and a
fallback row is what the decoder answers for a byte that no named row claims. -/
theorem decodeInvertsEncode : Obligations.DecodeInvertsEncode := by
  intro i rest wf bareAtEnd
  cases i
  case escapePrefix => rw [bareAtEnd rfl]; rfl
  case unknownOpcode op =>
    obtain ⟨alone, decoded⟩ := decodeBytes_unknown op wf
    exact (decode_alone rest alone).trans (by rw [decoded])
  case unknownEscapedOpcode op2 =>
    exact (decode_with_one op2 rest rfl).trans (by rw [← decodeEscaped_unknown op2 wf]; rfl)
  case ldBcNn nn | ldDeNn nn | ldHlNn nn | ldSpNn nn | jpNn nn | callNn nn | ldMemNnA nn | ldAMemNn nn =>
    obtain ⟨hi, lo, rfl⟩ := exists_bytes nn
    simp only [encode, lowByte_wordOfBytes, highByte_wordOfBytes]
    rfl
  all_goals rfl

theorem operandBytes_cases (op : Byte) :
    operandBytes op = 0 ∨ operandBytes op = 1 ∨ operandBytes op = 2 := by
  revert op; decide

/-- Three bytes never decode to the bare escape byte, whose second byte is read with it (R117). -/
theorem decodeBytes_ne_escapePrefix (op b1 b2 : Byte) : decodeBytes op b1 b2 ≠ .escapePrefix := by
  intro h
  obtain ⟨encoded, -⟩ := h ▸ decodeBytes_encodesTo op b1 b2
  rw [Nat.add_comm, List.take_succ_cons] at encoded
  obtain ⟨rfl, none⟩ := List.cons_eq_cons.mp encoded
  cases none

/-- Three bytes decode to the instruction that `step` runs on them (R121). -/
theorem decode_three (op b1 b2 : Byte) (rest : List Byte) :
    decode (op :: b1 :: b2 :: rest) =
      .ok (decodeBytes op b1 b2, (op :: b1 :: b2 :: rest).drop (1 + operandBytes op)) := by
  obtain ⟨encoded, wf⟩ := decodeBytes_encodesTo op b1 b2
  have parts : encode (decodeBytes op b1 b2) ++ (op :: b1 :: b2 :: rest).drop (1 + operandBytes op) =
      op :: b1 :: b2 :: rest := by
    rw [encoded]
    obtain len | len | len := operandBytes_cases op <;> rw [len] <;> rfl
  have notBare := decodeBytes_ne_escapePrefix op b1 b2
  rw [← parts]
  exact (decodeInvertsEncode _ _ wf fun bare => absurd bare notBare).trans (by rw [parts])

theorem encode_length (i : Instr) (h : i ≠ .escapePrefix) : (encode i).length = i.length := by
  cases i
  case escapePrefix => exact absurd rfl h
  all_goals rfl

/-- An instruction is as long as its opcode byte says (R110). -/
theorem length_decodeBytes (op b1 b2 : Byte) : (decodeBytes op b1 b2).length = 1 + operandBytes op := by
  obtain ⟨encoded, -⟩ := decodeBytes_encodesTo op b1 b2
  rw [← encode_length _ (decodeBytes_ne_escapePrefix op b1 b2), encoded]
  obtain len | len | len := operandBytes_cases op <;> rw [len] <;> rfl

/-- Settles O21: the instruction is the one that `step` runs. -/
theorem everyByteSequenceDecodes : Obligations.EveryByteSequenceDecodes := fun op b1 b2 rest =>
  ⟨decodeBytes op b1 b2, decode_three op b1 b2 rest, length_decodeBytes op b1 b2,
    decodeBytes_ne_escapePrefix op b1 b2⟩

/-! The words and the counts of R118 -/

/-- Settles O18: the decoder runs on each word. -/
theorem specWordsDecode : Obligations.SpecWordsDecode := by
  unfold Obligations.SpecWordsDecode
  and_intros <;> rfl

/-- Settles O22: the filters run over the 256 bytes. -/
theorem opcodeMapCounts : Obligations.OpcodeMapCounts := by
  unfold Obligations.OpcodeMapCounts
  and_intros <;> rfl

end Sys2Proof
end

section
/-! The bus (20_memory.md): the address map, and what a write does, region by region. -/

namespace Sys2Proof.Machine

/-! The address map -/

/-- The base addresses of R71 as numbers (D5). -/
theorem baseAddresses : vramBase = 0x8000 ∧ wramBase = 0xC000 ∧ oamBase = 0xFE00 ∧ ioBase = 0xFF00 ∧
    hramBase = 0xFF80 ∧ ieAddr = 0xFFFF := ⟨rfl, rfl, rfl, rfl, rfl, rfl⟩

/-- The I/O block: eleven registers over generic bytes (R75). -/
theorem Region.of_io {a : Word} (h : 0xFF00 ≤ a.toNat ∧ a.toNat ≤ 0xFF7F) :
    Region.of a = if a = 0xFF0F#16 then .overlay .interruptFlag else if a = 0xFF40#16 then .overlay .lcdc
      else if a = 0xFF41#16 then .overlay .stat else if a = 0xFF42#16 then .overlay .scy
      else if a = 0xFF43#16 then .overlay .scx else if a = 0xFF44#16 then .overlay .ly
      else if a = 0xFF47#16 then .overlay .bgp else if a = 0xFF48#16 then .overlay .obp0
      else if a = 0xFF49#16 then .overlay .obp1 else if a = 0xFF4A#16 then .overlay .wy
      else if a = 0xFF4B#16 then .overlay .wx else .io := by
  cases hat : Overlay.at a.toNat with
  | some reg =>
    have ha : a = BitVec.ofNat 16 reg.addr := by
      rw [Overlay.at_some hat, BitVec.ofNat_toNat, BitVec.setWidth_eq]
    subst ha
    cases reg <;> rfl
  | none =>
    have := baseAddresses
    iterate 11 rw [if_neg (by rintro rfl; revert hat; decide)]
    simp only [Region.of, Region.ofNat]
    iterate 7 rw [if_neg (by omega)]
    rw [if_pos (by omega), hat]

/-- Settles O39: each range lies past the ranges below it and before the ranges above it. -/
theorem addressMapIsTheTable : Obligations.AddressMapIsTheTable := by
  intro a
  refine ⟨fun h => ?_, fun h => ?_, fun h => ?_, fun h => ?_, fun h => ?_, fun h => ?_, fun h => ?_,
    Region.of_io, fun h => ?_, fun h => h ▸ rfl⟩
  all_goals
    have := baseAddresses
    simp only [Region.of, Region.ofNat]
  · rw [if_pos (by omega)]
  · rw [if_neg (by omega), if_pos (by omega)]
  · iterate 2 rw [if_neg (by omega)]
    rw [if_pos (by omega)]
  · iterate 3 rw [if_neg (by omega)]
    rw [if_pos (by omega)]
  · iterate 4 rw [if_neg (by omega)]
    rw [if_pos (by omega)]
  · iterate 5 rw [if_neg (by omega)]
    rw [if_pos (by omega)]
  · iterate 6 rw [if_neg (by omega)]
    rw [if_pos (by omega)]
  · iterate 8 rw [if_neg (by omega)]
    rw [if_pos (by omega)]

/-! Plain storage -/

/-- A write to plain storage stores the byte and does nothing else (R73). -/
theorem memWrite_ram {addr : Word} (v : Byte) (s : State) (h : (Region.of addr).isRam = true) :
    memWrite addr v s = { s with mem := s.mem.set addr.toNat v } := by
  unfold memWrite
  cases hr : Region.of addr <;> simp [hr, Region.isRam] at h ⊢

/-- A read of plain storage returns the stored byte (R73). -/
theorem busRead_ram {addr : Word} (s : State) (h : (Region.of addr).isRam = true) :
    busRead addr s = s.mem.get addr.toNat := by
  unfold busRead
  cases hr : Region.of addr <;> simp [hr, Region.isRam] at h ⊢

/-- Plain storage always answers a read (R80). -/
theorem readMisses_ram {addr : Word} (s : State) (h : (Region.of addr).isRam = true) :
    readMisses addr s = false := by
  unfold readMisses
  cases hr : Region.of addr <;> simp [hr, Region.isRam] at h ⊢

/-- A read that does not miss leaves no event (R76). -/
theorem noteRead_of_answered {addr : Word} {s : State} (h : readMisses addr s = false) :
    noteRead addr s = s := by
  simp [noteRead, h]

/-- Settles O40: plain storage is the list of cells, and nothing but it. -/
theorem ramRoundTrip : Obligations.RamRoundTrip := by
  intro s a v wf ram
  refine ⟨busRead_memWrite_ram a v s wf ram, ?_, memWrite_wf a v s wf, busRead_ram s ram,
    noteRead_of_answered (readMisses_ram s ram)⟩
  rw [memWrite_ram v s ram]

/-! Every write -/

/-- A write reaches no cell but the one at its address (R77). -/
theorem get_memWrite_other (addr : Word) (v : Byte) (s : State) {k : Nat} (h : k ≠ addr.toNat) :
    (memWrite addr v s).mem.get k = s.mem.get k := by
  unfold memWrite
  cases Region.of addr with
  | vram | wram | oam | io | hram => exact Memory.get_set_other _ _ _ _ h
  | overlay reg => simp
  | rom | interruptEnable | unmapped => rfl

/-- Only an unmapped write is reported (R80). -/
theorem memWrite_trace {addr : Word} (v : Byte) (s : State) (h : Region.of addr ≠ .unmapped) :
    (memWrite addr v s).trace = s.trace := by
  unfold memWrite
  cases hr : Region.of addr with
  | unmapped => exact absurd hr h
  | overlay reg => simp
  | rom | vram | wram | oam | io | hram | interruptEnable => rfl

/-- An overlay register but STAT and LY returns the value written (R75). -/
theorem getOverlay_setOverlay_same {reg : Overlay} (v : Byte) (s : State) (stat : reg ≠ .stat)
    (ly : reg ≠ .ly) : (s.setOverlay reg v).getOverlay reg = v := by
  cases reg
  case stat => exact absurd rfl stat
  case ly => exact absurd rfl ly
  all_goals rfl

/-- Outside ROM, the unmapped ranges, STAT and LY a written byte reads back (R77). -/
theorem busRead_memWrite_same {a : Word} (v : Byte) (s : State) (wf : s.mem.wf)
    (rom : Region.of a ≠ .rom) (unmapped : Region.of a ≠ .unmapped) (stat : a ≠ 0xFF41#16)
    (ly : a ≠ 0xFF44#16) : busRead a (memWrite a v s) = v := by
  cases hr : Region.of a with
  | rom => exact absurd hr rom
  | unmapped => exact absurd hr unmapped
  | vram | wram | oam | io | hram => exact busRead_memWrite_ram a v s wf (by rw [hr]; rfl)
  | interruptEnable => simp [busRead, memWrite, hr]
  | overlay reg =>
    have addr := Region.of_overlay hr
    simp only [busRead, memWrite, hr]
    refine getOverlay_setOverlay_same v s (fun h => stat ?_) (fun h => ly ?_)
    all_goals exact BitVec.eq_of_toNat_eq (by rw [← addr, h]; rfl)

/-- Settles O41: a write reaches one cell or one register, and no CPU or engine state. -/
theorem writeLeavesOtherAddresses : Obligations.WriteLeavesOtherAddresses := by
  intro s a v
  exact ⟨by simp [SameRegs], by simp [SameEngine], by simp, by simp,
    fun x hx => busRead_memWrite_other a x v s hx,
    fun k hk => get_memWrite_other a v s hk, memWrite_trace v s, busRead_memWrite_same v s⟩

/-! Registers on the bus, ROM and unmapped addresses -/

/-- A write to STAT keeps bits 1..0 and takes the others (R33, D25). -/
theorem statWrite_bit (old v : Byte) {k : Nat} (hk : k < 8) :
    (statWrite old v).getLsbD k = if k < 2 then old.getLsbD k else v.getLsbD k := by
  have high : (0xFC#8).getLsbD k = !decide (k < 2) := by revert k; decide
  have low : (0x03#8).getLsbD k = decide (k < 2) := by revert k; decide
  rw [statWrite, BitVec.getLsbD_or, BitVec.getLsbD_and, BitVec.getLsbD_and, high, low]
  split <;> simp [*]

/-- Settles O42: each address decodes to its register. -/
theorem overlayRegistersReadAndWrite : Obligations.OverlayRegistersReadAndWrite := by
  intro s v
  have stat : ∃ w, memWrite 0xFF41#16 v s = { s with stat := w } ∧
      ∀ k < 8, w.getLsbD k = if k < 2 then s.stat.getLsbD k else v.getLsbD k :=
    ⟨statWrite s.stat v, rfl, fun _ => statWrite_bit s.stat v⟩
  exact ⟨⟨rfl, rfl⟩, ⟨rfl, rfl⟩, ⟨rfl, stat⟩, ⟨rfl, rfl⟩, ⟨rfl, rfl⟩, ⟨rfl, rfl⟩, ⟨rfl, rfl⟩, ⟨rfl, rfl⟩,
    ⟨rfl, rfl⟩, ⟨rfl, rfl⟩, ⟨rfl, rfl⟩, ⟨rfl, rfl⟩⟩

/-- Settles O43: the two fail-soft regions, and the image's end inside the first. -/
theorem romAndUnmappedAccesses : Obligations.RomAndUnmappedAccesses := by
  intro s a v
  refine ⟨fun rom => ⟨?_, fun inside => ?_, fun beyond => ?_⟩, fun unmapped => ⟨?_, ?_⟩⟩
  · simp [memWrite, rom]
  · simp [memRead, busRead, noteRead, readMisses, rom, inside]
  · simp [memRead, busRead, noteRead, readMisses, rom, beyond, Nat.not_lt.mpr beyond, State.emit]
  · simp [memRead, busRead, noteRead, readMisses, unmapped, State.emit]
  · simp [memWrite, unmapped, State.emit]

end Sys2Proof.Machine
end

section
/-! The instructions, one by one (41_control_transfer.md to 44_system_misc.md): every row runs one shared
operation, and what that operation writes and keeps is said once. -/

namespace Sys2Proof.Machine

/-! Rows with a register, pair or bit field -/

theorem exec_ldRegReg (dst src : Reg) (s : State) :
    exec (Instr.ldRegReg dst src) s = .next (loadRegReg dst src s) := by
  cases dst <;> cases src <;> rfl

theorem exec_ldRegImm (dst : Reg) (n : Byte) (s : State) :
    exec (Instr.ldRegImm dst n) s = .next (loadRegImm dst n s) := by
  cases dst <;> rfl

theorem exec_incPair (p : Pair) (s : State) : exec (Instr.incPair p) s = .next (incrementPair p s) := by
  cases p <;> rfl

theorem exec_resBitReg (bit : BitVec 3) (r : Reg) (s : State) :
    exec (Instr.resBitReg bit r) s = .next (resetBit bit r s) := by
  have bits : bit = 0#3 ∨ bit = 1#3 ∨ bit = 2#3 ∨ bit = 3#3 ∨ bit = 4#3 ∨ bit = 5#3 ∨ bit = 6#3 ∨
      bit = 7#3 := by
    revert bit; decide
  obtain rfl | rfl | rfl | rfl | rfl | rfl | rfl | rfl := bits <;> cases r <;> rfl

@[simp] theorem getReg_advance (s : State) (len : Word) (cost : Byte) (r : Reg) :
    (s.advance len cost).getReg r = s.getReg r := by
  cases r <;> rfl

@[simp] theorem getPair_advance (s : State) (len : Word) (cost : Byte) (p : Pair) :
    (s.advance len cost).getPair p = s.getPair p := by
  cases p <;> rfl

/-- What an instruction that writes one register writes and keeps. -/
theorem registerWrite_effect (s : State) (r : Reg) (v : Byte) (len : Word) (cost : Byte) :
    let t := (s.setReg r v).advance len cost
    t.getReg r = v ∧ (∀ q, q ≠ r → t.getReg q = s.getReg q) ∧ t.f = s.f ∧ t.sp = s.sp ∧
      t.pc = s.pc + len ∧ t.cost = cost ∧ SameBusRegs s t ∧ SameEngine s t ∧ SameReads s t ∧
      t.trace = s.trace := by
  refine ⟨by simp, fun q hq => ?_, by simp, by simp, by simp, by simp, by simp [SameBusRegs],
    by simp [SameEngine], ?_, by simp⟩
  · rw [getReg_advance, getReg_setReg_other s r q v hq]
  · exact ((busAgree_setReg s r v).trans (busAgree_advance _ len cost)).sameReads

/-- Settles O25: the value written is that of the source register. -/
theorem loadRegisterCopies : Obligations.LoadRegisterCopies := fun dst src s =>
  ⟨_, exec_ldRegReg dst src s, registerWrite_effect s dst (s.getReg src) 1#16 4#8⟩

/-- Settles O26: the value written is the immediate. -/
theorem loadImmediateWritesRegister : Obligations.LoadImmediateWritesRegister := fun dst n s =>
  ⟨_, exec_ldRegImm dst n s, registerWrite_effect s dst n 2#16 8#8⟩

theorem clearMask_bit (bit : BitVec 3) {k : Nat} (hk : k < 8) :
    (clearMask bit).getLsbD k = !decide (k = bit.toNat) := by
  revert hk k bit; decide

/-- Clearing a bit makes it 0 and keeps the others (R203). -/
theorem clearBit_bit (bit : BitVec 3) (v : Byte) {k : Nat} (hk : k < 8) :
    (clearBit bit v).getLsbD k = if k = bit.toNat then false else v.getLsbD k := by
  rw [clearBit, BitVec.getLsbD_and, clearMask_bit bit hk]
  split <;> simp [*]

/-- Settles O29: the value written is the register with the bit cleared. -/
theorem resetBitClearsOneBit : Obligations.ResetBitClearsOneBit := by
  intro bit r s
  obtain ⟨written, kept⟩ := registerWrite_effect s r (clearBit bit (s.getReg r)) 2#16 8#8
  refine ⟨_, exec_resBitReg bit r s, fun k hk => ?_, kept⟩
  exact (congrArg (·.getLsbD k) written).trans (clearBit_bit bit _ hk)

theorem getPair_setPair_other (s : State) (p q : Pair) (v : Word) (h : q ≠ p) :
    (s.setPair p v).getPair q = s.getPair q := by
  cases p <;> cases q
  case bc.bc | de.de | hl.hl | sp.sp => exact absurd rfl h
  all_goals rfl

/-- Settles O28: one pair is written, with its successor modulo 65536. -/
theorem incrementPairAddsOne : Obligations.IncrementPairAddsOne := by
  intro p s
  refine ⟨_, exec_incPair p s, ?_, fun q hq => ?_, ?_⟩
  · rw [incrementPair, getPair_advance, getPair_setPair_same, BitVec.toNat_add]
    rfl
  · rw [incrementPair, getPair_advance, getPair_setPair_other s p q _ hq]
  · have reads := (busAgree_setPair s p (s.getPair p + 1#16)).trans (busAgree_advance _ 1#16 8#8)
    refine ⟨?_, ?_, ?_, ?_, ?_, ?_, reads.sameReads, ?_⟩ <;>
      simp [incrementPair, SameBusRegs, SameEngine]

/-! Rows whose whole next state is one update -/

/-- Settles O23: both rows are one update. -/
theorem nopAndDisableInterrupts : Obligations.NopAndDisableInterrupts := fun _ => ⟨rfl, rfl⟩

/-- Settles O24: both rows are one event and one skip. -/
theorem unknownOpcodesSkip : Obligations.UnknownOpcodesSkip := fun _ _ => ⟨rfl, rfl⟩

/-- Settles O27: each row is one update. -/
theorem loadPairWritesBothHalves : Obligations.LoadPairWritesBothHalves := fun _ _ =>
  ⟨rfl, rfl, rfl, rfl⟩

/-- The sign extension of R9 by cases. -/
theorem signExtend16_eq (e : Byte) : signExtend16 e = offset16 e := by
  revert e; decide

theorem relativeTarget_eq (pc : Word) (e : Byte) : relativeTarget pc e = pc + 2#16 + offset16 e := by
  rw [relativeTarget, signExtend16_eq]

/-- Settles O34: the three jumps share the target, and Z and NZ are bit 7 of F. -/
theorem relativeJumpsAddSignedOffset : Obligations.RelativeJumpsAddSignedOffset := by
  intro s e
  rw [← relativeTarget_eq]
  refine ⟨rfl, ?_, ?_⟩
  · show Host.Outcome.next (jumpRelativeIf (s.f.getLsbD 7) e s) = _
    cases s.f.getLsbD 7 <;> rfl
  · show Host.Outcome.next (jumpRelativeIf (!s.f.getLsbD 7) e s) = _
    cases s.f.getLsbD 7 <;> rfl

/-! Stores and loads -/

/-- The high-page address as a sum of numbers (D13). -/
theorem highPage_eq (n : Byte) : highPage n = BitVec.ofNat 16 (0xFF00 + n.toNat) := by
  revert n; decide

/-- What a store writes and keeps. -/
theorem storeA_effect (s : State) (addr len : Word) (cost : Byte) :
    let t := storeA addr len cost s
    t = { memWrite addr s.a s with pc := s.pc + len, cost := cost } ∧
      (∀ x, x ≠ addr → busRead x t = busRead x s) ∧
      (s.mem.wf → (Region.of addr).isRam = true → busRead addr t = s.a) ∧
      SameRegs s t ∧ SameEngine s t ∧
      ((Region.of addr).isRam = true → SameBusRegs s t ∧ t.trace = s.trace) := by
  have reads := (busAgree_advance (memWrite addr s.a s) len cost).busRead
  refine ⟨?_, fun x hx => ?_, fun wf ram => ?_, by simp [storeA, SameRegs], by simp [storeA, SameEngine],
    fun ram => ?_⟩
  · simp [storeA, State.advance]
  · exact (reads x).trans (busRead_memWrite_other addr x s.a s hx)
  · exact (reads addr).trans (busRead_memWrite_ram addr s.a s wf ram)
  · simp [storeA, memWrite_ram s.a s ram, SameBusRegs]

/-- Settles O30: both rows are a store, at the address of the operand. -/
theorem storesWriteOneAddress : Obligations.StoresWriteOneAddress := by
  rintro s _ nn _ _ (⟨_, rfl, rfl, rfl, rfl⟩ | ⟨n, rfl, rfl, rfl, rfl⟩)
  · exact ⟨_, rfl, storeA_effect s nn 3#16 16#8⟩
  · exact highPage_eq n ▸ ⟨_, rfl, storeA_effect s (highPage n) 2#16 12#8⟩

/-- A read's state, with the event it may leave (R76, R80). -/
theorem noteRead_eq (addr : Word) (s : State) :
    noteRead addr s =
      { s with trace := s.trace ++ if readMisses addr s then [.unmappedRead addr] else [] } := by
  unfold noteRead
  split
  case isTrue => rfl
  case isFalse => rw [List.append_nil]

/-- What a load writes and keeps. -/
theorem loadA_effect (s : State) (addr len : Word) (cost : Byte) :
    let t := loadA addr len cost s
    t = { s with a := busRead addr s, pc := s.pc + len, cost := cost, trace := t.trace } ∧
      t.trace = (if readMisses addr s then s.trace ++ [.unmappedRead addr] else s.trace) ∧
      SameReads s t := by
  have loaded : BusAgree s (loadA addr len cost s) :=
    (busAgree_noteRead addr s).trans ⟨rfl, rfl, rfl, fun reg => by cases reg <;> rfl⟩
  refine ⟨?_, ?_, loaded.sameReads⟩
  · simp [loadA, memRead, noteRead_eq, State.advance]
  · simp only [loadA, memRead, advance_frame, noteRead]
    split <;> rfl

/-- Settles O31: both rows are a load, from the address of the operand. -/
theorem loadsReadOneAddress : Obligations.LoadsReadOneAddress := by
  rintro s _ nn _ _ (⟨_, rfl, rfl, rfl, rfl⟩ | ⟨n, rfl, rfl, rfl, rfl⟩)
  · exact ⟨_, rfl, loadA_effect s nn 3#16 16#8⟩
  · exact highPage_eq n ▸ ⟨_, rfl, loadA_effect s (highPage n) 2#16 12#8⟩

/-! The stack -/

/-- What a call writes and keeps. -/
theorem push16_jump_effect (s : State) (v target : Word) (cost : Byte) :
    let t := (push16 v s).jump target cost
    t = { memWrite (s.sp - 2#16) (v.extractLsb' 0 8) (memWrite (s.sp - 1#16) (v.extractLsb' 8 8) s) with
          sp := s.sp - 2#16, pc := target, cost := cost } ∧
      (∀ x, x ≠ s.sp - 1#16 → x ≠ s.sp - 2#16 → busRead x t = busRead x s) ∧
      t.a = s.a ∧ t.f = s.f ∧ t.b = s.b ∧ t.c = s.c ∧ t.d = s.d ∧ t.e = s.e ∧ t.h = s.h ∧ t.l = s.l ∧
      SameEngine s t := by
  refine ⟨rfl, fun x h1 h2 => ?_, by simp [SameEngine]⟩
  rw [(busAgree_jump _ target cost).busRead, busRead_push16_other v s x h1 h2]

/-- Settles O35: both rows push and jump. -/
theorem callAndRestartPushReturnAddress : Obligations.CallAndRestartPushReturnAddress := by
  rintro s _ nn _ _ (⟨_, rfl, rfl, rfl, rfl⟩ | ⟨rfl, rfl, rfl, rfl⟩)
  · exact ⟨_, rfl, push16_jump_effect s (s.pc + 3#16) nn 24#8⟩
  · exact ⟨_, rfl, push16_jump_effect s (s.pc + 1#16) 0x0038#16 16#8⟩

/-- A pop reads two bytes, reports each of them that misses, and moves the pointer (R160). -/
theorem pop16_eq (s : State) :
    pop16 s = (wordOfBytes (busRead (s.sp + 1#16) s) (busRead s.sp s),
      { s with
        sp := s.sp + 2#16
        trace := s.trace ++ (if readMisses s.sp s then [.unmappedRead s.sp] else []) ++
          (if readMisses (s.sp + 1#16) s then [.unmappedRead (s.sp + 1#16)] else []) }) := by
  have first := busAgree_noteRead s.sp s
  refine Prod.ext (pop16_value s) ?_
  simp only [pop16, memRead, noteRead_eq (_ + 1#16), noteRead_frame, first.readMisses]
  simp only [noteRead_eq]

/-- A return pops into the pc (R166). -/
theorem returnFromStack_eq (cost : Byte) (s : State) :
    returnFromStack cost s = { s with
      pc := busRead (s.sp + 1#16) s ++ busRead s.sp s, sp := s.sp + 2#16, cost := cost
      trace := s.trace ++ (if readMisses s.sp s then [.unmappedRead s.sp] else []) ++
        (if readMisses (s.sp + 1#16) s then [.unmappedRead (s.sp + 1#16)] else []) } := by
  rw [returnFromStack, pop16_eq]
  rfl

/-- `RET NZ` returns exactly if bit 7 of F is 0 (R167, D37). -/
theorem exec_retNz (s : State) :
    exec .retNz s =
      .next (if s.f.getLsbD 7 = false then returnFromStack 20#8 s else s.advance 1#16 8#8) := by
  show Host.Outcome.next (if (!s.f.getLsbD 7) = true then _ else _) = _
  cases s.f.getLsbD 7 <;> rfl

/-- Settles O36: both returns pop, and NZ is bit 7 of F. -/
theorem returnsPopTheProgramCounter : Obligations.ReturnsPopTheProgramCounter := by
  intro s
  refine ⟨?_, fun nz => ?_, fun z => ?_, fun cost addr => ?_⟩
  · exact congrArg _ (returnFromStack_eq 16#8 s)
  · rw [exec_retNz, if_pos nz, returnFromStack_eq]
  · rw [exec_retNz, if_neg (by simp [z]), State.advance]
  · exact BusAgree.busRead ⟨rfl, rfl, rfl, fun reg => by cases reg <;> rfl⟩ addr

/-- A push to plain storage stores two cells and moves the pointer (R160, R73). -/
theorem push16_ram (v : Word) {s : State} (high : (Region.of (s.sp - 1#16)).isRam = true)
    (low : (Region.of (s.sp - 2#16)).isRam = true) :
    push16 v s = { s with
      sp := s.sp - 2#16
      mem := (s.mem.set (s.sp - 1#16).toNat (highByte v)).set (s.sp - 2#16).toNat (lowByte v) } := by
  rw [push16, memWrite_ram _ _ high, memWrite_ram _ _ low]

/-- A pop from plain storage reports nothing (R160, R73). -/
theorem pop16_ram {s : State} (low : (Region.of s.sp).isRam = true)
    (high : (Region.of (s.sp + 1#16)).isRam = true) :
    pop16 s = (wordOfBytes (s.mem.get (s.sp + 1#16).toNat) (s.mem.get s.sp.toNat),
      { s with sp := s.sp + 2#16 }) := by
  rw [pop16_eq, busRead_ram s low, busRead_ram s high, readMisses_ram s low, readMisses_ram s high]
  simp

/-- A pop right after a push to plain storage takes the value back. -/
theorem pop16_of_pushed (v : Word) {s t : State} (wf : s.mem.wf)
    (high : (Region.of (s.sp - 1#16)).isRam = true) (low : (Region.of (s.sp - 2#16)).isRam = true)
    (sp : t.sp = s.sp - 2#16) (mem : t.mem = (push16 v s).mem) :
    pop16 t = (v, { t with sp := s.sp }) := by
  have back1 : s.sp - 2#16 + 1#16 = s.sp - 1#16 := by bv_omega
  have back2 : s.sp - 2#16 + 2#16 = s.sp := by bv_omega
  have apart : (s.sp - 1#16).toNat ≠ (s.sp - 2#16).toNat := by bv_omega
  rw [pop16_ram (sp ▸ low) (by rw [sp, back1]; exact high), sp, back1, back2, mem, push16_ram v high low,
    Memory.get_set_other _ _ _ _ apart, Memory.get_set_same _ _ _ wf,
    Memory.get_set_same _ _ _ (Memory.wf_set _ _ _ wf (BitVec.isLt _)), wordOfBytes_bytes]

/-- Settles O38: the pop takes back what the push stored in two cells. -/
theorem returnUndoesCall : Obligations.ReturnUndoesCall := by
  rintro s _ nn wf high low ⟨⟩
  have popped := pop16_of_pushed (s.pc + 3#16) (t := (push16 (s.pc + 3#16) s).jump nn 24#8) wf high low
    (by simp) (by simp)
  obtain ⟨u, run, rfl⟩ : ∃ u, exec .ret ((push16 (s.pc + 3#16) s).jump nn 24#8) = .next u ∧
      u = { (push16 (s.pc + 3#16) s).jump nn 24#8 with sp := s.sp }.jump (s.pc + 3#16) 16#8 :=
    ⟨_, rfl, by rw [returnFromStack, popped]⟩
  refine ⟨_, run, rfl, ?_, ?_, ?_, ?_, fun x h1 h2 => ?_⟩
  · simp [SameRegs]
  · simp [SameBusRegs, push16_ram _ high low]
  · simp [SameEngine]
  · simp [push16_ram _ high low]
  · refine Eq.trans ?_ (busRead_push16_other (s.pc + 3#16) s x h1 h2)
    exact BusAgree.busRead ⟨rfl, rfl, rfl, fun reg => by cases reg <;> rfl⟩ x

/-! The bare escape byte -/

theorem exec_decodeEscaped (op2 : Byte) (s : State) :
    exec (decodeEscaped op2) s = .next (runEscaped op2 s) := by
  unfold decodeEscaped runEscaped
  cases resOperands op2 with
  | some row => exact exec_resBitReg row.1 row.2 s
  | none => rfl

/-- Settles O37: after the read both run the selected row. -/
theorem escapePrefixRunsTheSelectedRow : Obligations.EscapePrefixRunsTheSelectedRow := fun _ =>
  ⟨_, rfl, exec_decodeEscaped _ _⟩

/-! Every instruction -/

/-- The row that a second byte selects costs 8, or the open cost of an unknown row, and is two bytes long
(R205, R225). -/
theorem runEscaped_written (op2 : Byte) (s : State) :
    (runEscaped op2 s).cost = (if isResByte op2 then 8#8 else s.cfg.cbUnknownCost) ∧
    (runEscaped op2 s).pc = s.pc + 2#16 := by
  rw [isResByte_eq]
  unfold runEscaped
  cases resOperands op2 <;> simp [resetBit, skipEscaped]

/-- Settles O5: the cost and the length stand in each row's shared operation. -/
theorem everyInstructionCompletesAtItsCost : Obligations.EveryInstructionCompletesAtItsCost := by
  intro i s
  cases i
  case jrZN e | jrNzN e =>
    refine ⟨_, rfl, ?_, nofun⟩
    simp only [cyclesOf, jumpRelativeIf]
    split <;> rfl
  case retNz =>
    refine ⟨_, rfl, ?_, nofun⟩
    simp only [cyclesOf]
    split <;> rfl
  case escapePrefix =>
    obtain ⟨cost, pc⟩ := runEscaped_written (busRead (s.pc + 1#16) s) (noteRead (s.pc + 1#16) s)
    exact ⟨_, rfl, cost.trans (by simp [cyclesOf]), fun _ => pc.trans (by simp [Instr.length])⟩
  case ldhMemNA n | ldMemNnA nn => exact ⟨_, rfl, rfl, fun _ => by simp [storeA, Instr.length]⟩
  case ldhAMemN n | ldAMemNn nn => exact ⟨_, rfl, rfl, fun _ => by simp [loadA, memRead, Instr.length]⟩
  case jrN | jpNn | callNn | ret | rst38 => exact ⟨_, rfl, rfl, nofun⟩
  all_goals exact ⟨_, rfl, rfl, fun _ => rfl⟩

end Sys2Proof.Machine
end

section
/-! The rendering engine (45_ppu_mode_machine.md): what a call of `advance` and of `advance_rendering`
does to the engine's own fields. -/

namespace Sys2Proof.Machine

/-! The transitions -/

/-- Settles O45: a call that reaches the threshold is the transition of the mode. -/
theorem modeMachineTransitions : Obligations.ModeMachineTransitions := by
  intro s c
  refine ⟨advanceClock_of_below_threshold, fun hm h => ?_, fun hm h => ?_, fun hm h => ?_,
    fun hm hl h => ?_, fun hm hl h => ?_⟩
  all_goals
    rw [advanceClock_of_threshold_reached (by rw [hm]; exact h)]
    simp only [transition, hm]
  · rfl
  · rfl
  · rfl
  · have notPast : ¬ lastLine.toNat < (s.ly + 1#8).toNat := by
      simp only [lastLine]
      bv_omega
    simp only [leaveVblankLine, if_neg notPast, enterMode, statMirror, PpuMode.num]
  · have past : lastLine.toNat < (s.ly + 1#8).toNat := by
      simp only [lastLine]
      bv_omega
    simp only [leaveVblankLine, if_pos past, enterMode, statMirror, PpuMode.num]

/-- STAT mirrors the mode that a transition enters (R236). -/
theorem transition_stat (s : State) : (transition s).stat = statMirror s.stat (transition s).mode := by
  unfold transition
  cases s.mode with
  | oamScan => rfl
  | drawing => simp [leaveDrawing]
  | hblank =>
    simp only [leaveHblank]
    split <;> rfl
  | vblank =>
    simp only [leaveVblankLine]
    split <;> rfl

/-- Only the current scanline's row is rendered (R233). -/
theorem transition_fb_other (s : State) (k : Nat) (hk : k < 144) (h : k ≠ s.ly.toNat) :
    (transition s).fb[k] = s.fb[k] := by
  unfold transition
  cases s.mode with
  | oamScan => rfl
  | drawing => exact renderScanline_other _ k _ hk h
  | hblank =>
    simp only [leaveHblank]
    split <;> rfl
  | vblank =>
    simp only [leaveVblankLine]
    split <;> rfl

/-- The two things a call of `advance` can do (R231). -/
theorem advanceClock_cases (c : Nat) (s : State) :
    (s.clk + c < s.mode.threshold ∧ advanceClock c s = { s with clk := s.clk + c }) ∨
    (s.mode.threshold ≤ s.clk + c ∧ advanceClock c s = transition { s with clk := s.clk + c }) :=
  (Nat.lt_or_ge _ _).imp (fun h => ⟨h, advanceClock_of_below_threshold h⟩)
    fun h => ⟨h, advanceClock_of_threshold_reached h⟩

theorem advanceClock_stat_high (c : Nat) (s : State) (k : Nat) (hk : 2 ≤ k) :
    (advanceClock c s).stat.getLsbD k = s.stat.getLsbD k := by
  obtain ⟨-, h⟩ | ⟨-, h⟩ := advanceClock_cases c s <;> rw [h]
  rw [transition_stat, statMirror_high _ _ k hk]

theorem advanceClock_fb_other (c : Nat) (s : State) (k : Nat) (hk : k < 144) (h : k ≠ s.ly.toNat) :
    (advanceClock c s).fb[k] = s.fb[k] := by
  obtain ⟨-, eq⟩ | ⟨-, eq⟩ := advanceClock_cases c s <;> simp only [eq]
  exact transition_fb_other _ k hk h

theorem advanceClock_ifReg (c : Nat) (s : State) : (advanceClock c s).ifReg = s.ifReg := by
  have frame := EngineFrame.of_advanceClock c s
  unfold EngineFrame at frame
  rw [frame]

/-! `advance_rendering` -/

/-- Frame-complete is the call that goes from HBlank to VBlank (R234). -/
theorem frameComplete_iff_entersVblank (c : Nat) (s : State) :
    frameComplete c s = true ↔ s.mode = .hblank ∧ (advanceClock c s).mode = .vblank := by
  rw [frameComplete_eq_true_iff]
  refine and_congr_right fun hm => ?_
  obtain ⟨below, h⟩ | ⟨reached, h⟩ := advanceClock_cases c s <;> rw [h]
  · rw [hm] at below
    refine iff_of_false (fun h => Nat.not_lt.mpr h.1 below) ?_
    simp [hm]
  · rw [hm] at reached
    have entered := transition_of_hblank (s := { s with clk := s.clk + c }) hm
    rw [entered.1]
    refine (and_iff_right reached).trans ?_
    split <;> simp [*]

/-- Settles O47: frame-complete is the entry into VBlank, and the engine leaves IF alone until then. -/
theorem vblankRequestedOnEntry : Obligations.VblankRequestedOnEntry := by
  intro s c
  simp only [← frameComplete_iff_entersVblank]
  split
  case isTrue h => rw [advanceRendering_of_frameComplete h, advanceClock_ifReg]; rfl
  case isFalse h => exact advanceRendering_of_not_frameComplete (by simpa using h)

/-- What `advance_rendering` does to the engine's own fields is what `advance` does. -/
theorem advanceRendering_engine (c : Nat) (s : State) :
    (advanceRendering c s).mode = (advanceClock c s).mode ∧
    (advanceRendering c s).clk = (advanceClock c s).clk ∧
    (advanceRendering c s).ly = (advanceClock c s).ly ∧
    (advanceRendering c s).stat = (advanceClock c s).stat ∧
    (advanceRendering c s).fb = (advanceClock c s).fb := by
  unfold advanceRendering
  dsimp only
  split <;> exact ⟨rfl, rfl, rfl, rfl, rfl⟩

@[simp] theorem advanceRendering_kept (c : Nat) (s : State) :
    (advanceRendering c s).a = s.a ∧ (advanceRendering c s).f = s.f ∧ (advanceRendering c s).b = s.b ∧
    (advanceRendering c s).c = s.c ∧ (advanceRendering c s).d = s.d ∧ (advanceRendering c s).e = s.e ∧
    (advanceRendering c s).h = s.h ∧ (advanceRendering c s).l = s.l ∧ (advanceRendering c s).sp = s.sp ∧
    (advanceRendering c s).pc = s.pc ∧ (advanceRendering c s).ime = s.ime ∧
    (advanceRendering c s).total = s.total ∧ (advanceRendering c s).ie = s.ie ∧
    (advanceRendering c s).lcdc = s.lcdc ∧ (advanceRendering c s).scy = s.scy ∧
    (advanceRendering c s).scx = s.scx ∧ (advanceRendering c s).bgp = s.bgp ∧
    (advanceRendering c s).obp0 = s.obp0 ∧ (advanceRendering c s).obp1 = s.obp1 ∧
    (advanceRendering c s).wy = s.wy ∧ (advanceRendering c s).wx = s.wx ∧
    (advanceRendering c s).mem = s.mem ∧ (advanceRendering c s).cost = s.cost ∧
    (advanceRendering c s).trace = s.trace ∧ (advanceRendering c s).cfg = s.cfg := by
  and_intros <;> rw [advanceRendering_frame]

/-- IF after a call of `advance_rendering` (R241). -/
theorem advanceRendering_ifReg (c : Nat) (s : State) :
    (advanceRendering c s).ifReg = if frameComplete c s then requestVblank s.ifReg else s.ifReg := by
  cases h : frameComplete c s
  · rw [advanceRendering_of_not_frameComplete h, advanceClock_ifReg]
    rfl
  · rw [advanceRendering_of_frameComplete h, advanceClock_ifReg]
    rfl

/-- A V-Blank request sets bit 0 only (D11). -/
theorem requestVblank_high (old : Byte) (k : Nat) (hk : 1 ≤ k) :
    (requestVblank old).getLsbD k = old.getLsbD k := by
  have bit0 : (0x01#8).getLsbD k = false := by
    rw [BitVec.getLsbD_one, decide_eq_false (Nat.ne_of_gt hk), Bool.and_false]
  rw [requestVblank, BitVec.getLsbD_or, bit0, Bool.or_false]

/-- Settles O46: the engine reaches its own fields, bits 1..0 of STAT, one row, and bit 0 of IF. -/
theorem renderingLeavesTheRest : Obligations.RenderingLeavesTheRest := by
  intro s c
  obtain ⟨-, -, -, stat, fb⟩ := advanceRendering_engine c s
  simp only [SameRegs, advanceRendering_kept, and_self, true_and]
  refine ⟨fun k hk => ?_, fun k hk => ?_, fun y hy => ?_⟩
  · rw [advanceRendering_ifReg]
    split
    · exact requestVblank_high s.ifReg k hk
    · rfl
  · rw [stat, advanceClock_stat_high c s k hk]
  · simp only [fb]
    exact advanceClock_fb_other c s y y.isLt hy

/-! What the engine does not read, and what rendering writes -/

/-- A transition does not read LCDC (D35). -/
theorem transition_setLcdc (s : State) (v : Byte) :
    let u := transition { s with lcdc := v }
    u.mode = (transition s).mode ∧ u.clk = (transition s).clk ∧ u.ly = (transition s).ly ∧
      u.stat = (transition s).stat := by
  unfold transition
  cases hm : s.mode with
  | oamScan => exact ⟨rfl, rfl, rfl, rfl⟩
  | drawing => simp [leaveDrawing]
  | hblank =>
    simp only [leaveHblank]
    split <;> exact ⟨rfl, rfl, rfl, rfl⟩
  | vblank =>
    simp only [leaveVblankLine]
    split <;> exact ⟨rfl, rfl, rfl, rfl⟩

/-- Settles O49: neither the threshold test nor a transition reads LCDC. -/
theorem modeMachineIgnoresLcdc : Obligations.ModeMachineIgnoresLcdc := by
  intro s c v
  obtain ⟨below, h⟩ | ⟨reached, h⟩ := advanceClock_cases c s
  · have h' := advanceClock_of_below_threshold (s := { s with lcdc := v }) below
    simp only [h, h']
    exact ⟨trivial, trivial, trivial, trivial, rfl⟩
  · have h' := advanceClock_of_threshold_reached (s := { s with lcdc := v }) reached
    simp only [h, h']
    obtain ⟨mode, clk, ly, stat⟩ := transition_setLcdc { s with clk := s.clk + c } v
    exact ⟨mode, clk, ly, stat, rfl⟩

/-- With the display off every entry is 0 (R251). -/
theorem pixel_of_displayOff {s : State} (h : s.lcdc.getLsbD 7 = false) (sorted : List Nat) (x y : Nat) :
    s.pixel sorted x y = 0#2 := by
  rw [State.pixel, State.displayEnable, h]
  rfl

theorem renderScanline_changes_fb_only (y : Nat) (s : State) :
    renderScanline y s = { s with fb := (renderScanline y s).fb } := by
  unfold renderScanline
  split <;> rfl

/-- Settles O50: the one row that rendering writes is all 0 with the display off. -/
theorem renderingWritesOneRow : Obligations.RenderingWritesOneRow := by
  intro s y
  refine ⟨renderScanline_changes_fb_only y s, fun k hk => ?_, fun off x => ?_⟩
  · exact renderScanline_other y k s k.isLt (Fin.val_ne_of_ne hk)
  · exact (renderScanline_entry y x s y.isLt x.isLt).trans (pixel_of_displayOff off _ x y)

end Sys2Proof.Machine
end

section
/-! Reset and construction (10_state.md R60 to R62, 70_reset_and_hazards.md R310 and R311). -/

namespace Sys2Proof.Machine

/-- Settles O1: each register is a field of the reset state, or two of them put together. -/
theorem resetLeavesCpuRegisters : Obligations.ResetLeavesCpuRegisters := by
  unfold Obligations.ResetLeavesCpuRegisters
  decide

/-- Settles O2: each value is a field of the reset state. -/
theorem resetLeavesSequencerAtLineZero : Obligations.ResetLeavesSequencerAtLineZero := by
  unfold Obligations.ResetLeavesSequencerAtLineZero
  decide

/-- Settles O3: OAMScan of scanline 0 meets the mode machine's invariants, and no cell is listed. -/
theorem resetSatisfiesInvariant : Obligations.ResetSatisfiesInvariant :=
  ⟨by decide, by decide, Memory.wf_nil⟩

/-- The memory of a constructed machine: the visible part of the image, from address 0 on (R72). -/
theorem get_loadVisibleImage (image : List Byte) (addr : Nat) :
    (loadImage 0 (image.take vramBase)).get addr =
      if addr < vramBase then image.getD addr Memory.blank else Memory.blank := by
  have loaded := get_loadImage (image.take vramBase) 0 addr
  rw [Nat.zero_add] at loaded
  rw [loaded, List.getD_eq_getElem?_getD, List.getElem?_take]
  split
  case isTrue => rw [List.getD_eq_getElem?_getD]
  case isFalse => rfl

/-- A constructed machine reads the image below 0x8000, and 0 beyond the image (R72, D26). -/
theorem busRead_loadedImage {s : State} {image : List Byte} {addr : Word}
    (mem : s.mem = loadImage 0 (image.take vramBase)) (romLen : s.cfg.romLen = image.length)
    (h : addr.toNat < 0x8000) : busRead addr s = image.getD addr.toNat 0x00#8 := by
  have rom : Region.of addr = .rom := (addressMapIsTheTable addr).1 (by omega)
  simp only [busRead, rom, mem, romLen]
  split
  case isTrue => exact (get_loadVisibleImage image addr.toNat).trans (if_pos h)
  case isFalse beyond => rw [List.getD_eq_default _ _ (Nat.not_lt.mp beyond)]

/-- Settles O4: the length check is the one branch, and the visible image is the constructed memory. -/
theorem constructionChecksLengthAndPlacesImage : Obligations.ConstructionChecksLengthAndPlacesImage := by
  intro cfg image
  refine ⟨fun short => if_pos short, fun long => ⟨_, if_neg (Nat.not_lt.mpr long), rfl, ?_, fun addr h => ?_,
    fun addr h => ?_⟩⟩
  · exact loadImage_wf _ 0 (by rw [List.length_take, vramBase]; omega)
  · exact busRead_loadedImage rfl rfl h
  · exact (get_loadVisibleImage image addr).trans (if_neg (Nat.not_lt.mpr h))

end Sys2Proof.Machine
end

section
/-! What steers nothing (10_state.md R28, 60_exceptions.md R283 and R286): `ime` and the trace. Every
operation acts on two states that differ in these two fields alone in the same way. -/

namespace Sys2Proof.Machine

/-- `s` with another `ime` and another trace. -/
def State.withGhosts (s : State) (ime : Bool) (trace : List Event) : State :=
  { s with ime := ime, trace := trace }

theorem State.withGhosts_self (s : State) : s.withGhosts s.ime s.trace = s := rfl

/-- On `s`, `f` appends some events, keeps `ime`, and reads neither `ime` nor the trace. -/
def GhostFree (f : State → State) (s : State) : Prop :=
  ∃ events, ∀ ime old, f (s.withGhosts ime old) = (f s).withGhosts ime (old ++ events)

namespace GhostFree

variable {f g : State → State} {s : State}

theorem of_silent (h : ∀ ime old, f (s.withGhosts ime old) = (f s).withGhosts ime old) : GhostFree f s :=
  ⟨[], fun ime old => by rw [h, List.append_nil]⟩

theorem of_event (ev : Event)
    (h : ∀ ime old, f (s.withGhosts ime old) = (f s).withGhosts ime (old ++ [ev])) : GhostFree f s :=
  ⟨[ev], h⟩

theorem comp (hf : GhostFree f s) (hg : GhostFree g (f s)) : GhostFree (fun u => g (f u)) s := by
  obtain ⟨events, hf⟩ := hf
  obtain ⟨more, hg⟩ := hg
  exact ⟨events ++ more, fun ime old => by simp only [hf, hg, List.append_assoc]⟩

/-- A last update that touches neither ghost. -/
theorem then_silent (hf : GhostFree f s)
    (h : ∀ u ime old, g (u.withGhosts ime old) = (g u).withGhosts ime old) :
    GhostFree (fun u => g (f u)) s :=
  hf.comp (.of_silent fun ime old => h (f s) ime old)

/-- A choice that reads no ghost. -/
theorem ite {c : State → Prop} [∀ u, Decidable (c u)] (hf : GhostFree f s) (hg : GhostFree g s)
    (hc : ∀ ime old, c (s.withGhosts ime old) = c s) : GhostFree (fun u => if c u then f u else g u) s := by
  by_cases taken : c s
  · obtain ⟨events, hf⟩ := hf
    exact ⟨events, fun ime old => by simp only [hc, taken, if_true, hf]⟩
  · obtain ⟨events, hg⟩ := hg
    exact ⟨events, fun ime old => by simp only [hc, taken, if_false, hg]⟩

end GhostFree

/-! The bus -/

theorem noteRead_ghostFree (addr : Word) (s : State) : GhostFree (noteRead addr) s :=
  ⟨if readMisses addr s then [.unmappedRead addr] else [], fun ime old => by
    rw [noteRead_eq, noteRead_eq]; rfl⟩

theorem noteReads_ghostFree (pc : Word) (n : Nat) (s : State) : GhostFree (noteReads pc n) s := by
  induction n with
  | zero => exact .of_silent fun _ _ => rfl
  | succ k ih => exact ih.comp (noteRead_ghostFree _ _)

theorem memWrite_ghostFree (addr : Word) (v : Byte) (s : State) : GhostFree (memWrite addr v) s := by
  cases hr : Region.of addr with
  | unmapped => exact .of_event (.unmappedWrite addr v) fun ime old => by simp only [memWrite, hr]; rfl
  | overlay reg =>
    refine .of_silent fun ime old => ?_
    simp only [memWrite, hr]
    cases reg <;> rfl
  | rom => exact .of_silent fun ime old => by simp only [memWrite, hr]
  | vram | wram | oam | io | hram | interruptEnable =>
    exact .of_silent fun ime old => by simp only [memWrite, hr]; rfl

theorem storeA_ghostFree (addr len : Word) (cost : Byte) (s : State) : GhostFree (storeA addr len cost) s :=
  (memWrite_ghostFree addr s.a s).then_silent (g := (·.advance len cost)) fun _ _ _ => rfl

theorem loadA_ghostFree (addr len : Word) (cost : Byte) (s : State) : GhostFree (loadA addr len cost) s :=
  (noteRead_ghostFree addr s).then_silent (g := ({ · with a := busRead addr s }.advance len cost))
    fun _ _ _ => rfl

theorem push16_jump_ghostFree (v target : Word) (cost : Byte) (s : State) :
    GhostFree (fun u => (push16 v u).jump target cost) s :=
  ((memWrite_ghostFree (s.sp - 1#16) (highByte v) s).comp
    (memWrite_ghostFree (s.sp - 2#16) (lowByte v) _)).then_silent
    (g := ({ · with sp := s.sp - 2#16 }.jump target cost)) fun _ _ _ => rfl

theorem returnFromStack_ghostFree (cost : Byte) (s : State) : GhostFree (returnFromStack cost) s :=
  ⟨(if readMisses s.sp s then [.unmappedRead s.sp] else []) ++
      (if readMisses (s.sp + 1#16) s then [.unmappedRead (s.sp + 1#16)] else []),
    fun ime old => by rw [returnFromStack_eq, returnFromStack_eq, List.append_assoc]; rfl⟩

/-! The instructions -/

theorem runEscaped_ghostFree (op2 : Byte) (s : State) : GhostFree (runEscaped op2) s := by
  cases hrow : resOperands op2 with
  | some row =>
    refine .of_silent fun _ _ => ?_
    simp only [runEscaped, hrow]
    cases row.2 <;> rfl
  | none =>
    refine .of_event (.unknownEscapedOpcode s.pc op2) fun _ _ => ?_
    simp only [runEscaped, hrow]
    rfl

theorem jumpRelativeIf_ghostFree (taken : Bool) (e : Byte) (s : State) :
    GhostFree (jumpRelativeIf taken e) s :=
  .of_silent fun _ _ => by cases taken <;> rfl

/-- Every instruction but DI reads no ghost and writes events only. -/
theorem exec_ghostFree {i : Instr} (h : i ≠ .di) (s : State) :
    ∃ f, (∀ u, exec i u = .next (f u)) ∧ GhostFree f s := by
  cases i
  case di => exact absurd rfl h
  case jrZN e => exact ⟨_, fun _ => rfl, jumpRelativeIf_ghostFree s.condZ e s⟩
  case jrNzN e => exact ⟨_, fun _ => rfl, jumpRelativeIf_ghostFree s.condNZ e s⟩
  case retNz =>
    have taken := returnFromStack_ghostFree 20#8 s
    exact ⟨_, exec_retNz, taken.ite (.of_silent fun _ _ => rfl) fun _ _ => rfl⟩
  case ret => exact ⟨_, fun _ => rfl, returnFromStack_ghostFree 16#8 s⟩
  case callNn nn => exact ⟨_, fun _ => rfl, push16_jump_ghostFree (s.pc + 3#16) nn 24#8 s⟩
  case rst38 => exact ⟨_, fun _ => rfl, push16_jump_ghostFree (s.pc + 1#16) 0x0038#16 16#8 s⟩
  case ldMemNnA nn => exact ⟨_, fun _ => rfl, storeA_ghostFree nn 3#16 16#8 s⟩
  case ldhMemNA n => exact ⟨_, fun _ => rfl, storeA_ghostFree (highPage n) 2#16 12#8 s⟩
  case ldAMemNn nn => exact ⟨_, fun _ => rfl, loadA_ghostFree nn 3#16 16#8 s⟩
  case ldhAMemN n => exact ⟨_, fun _ => rfl, loadA_ghostFree (highPage n) 2#16 12#8 s⟩
  case escapePrefix =>
    exact ⟨_, fun _ => rfl,
      (noteRead_ghostFree (s.pc + 1#16) s).comp (runEscaped_ghostFree (busRead (s.pc + 1#16) s) _)⟩
  case unknownOpcode op => exact ⟨_, fun _ => rfl, .of_event (.unknownOpcode s.pc op) fun _ _ => rfl⟩
  case unknownEscapedOpcode op2 =>
    exact ⟨_, fun _ => rfl, .of_event (.unknownEscapedOpcode s.pc op2) fun _ _ => rfl⟩
  all_goals exact ⟨_, fun _ => rfl, .of_silent fun _ _ => rfl⟩

end Sys2Proof.Machine
end

section
/-! The instruction cycle (40_step_cycle.md): a step is a watchdog step, or it runs the decoded
instruction between the two forcings of `ime` and is accounted. -/

namespace Sys2Proof.Machine

/-! What a step can do, said once -/

theorem watchdogCondition_iff (s : State) :
    watchdogCondition s = true ↔ s.pc = 0x0038#16 ∨ s.cfg.watchdogThreshold < s.total := by
  simp [watchdogCondition, watchdogPc]

theorem step_of_watchdog {s : State} (h : watchdogCondition s = true) : step s = .next (watchdogStep s) :=
  if_pos h

/-- The instruction at `pc` does not depend on `ime` (R144, R145). -/
theorem fetchedInstr_syncIme (s : State) : fetchedInstr (syncIme s) = fetchedInstr s := by
  simp only [fetchedInstr, (busAgree_syncIme s).busRead, syncIme_frame]

/-- A step that is no watchdog step completes the instruction at `pc` and finishes the cycle. -/
theorem step_of_run {s : State} (h : watchdogCondition s = false) :
    ∃ t, exec (fetchedInstr s) (fetched (syncIme s)) = .next t ∧ step s = .next (finishCycle t) := by
  obtain ⟨t, run, -⟩ := everyInstructionCompletesAtItsCost (fetchedInstr s) (fetched (syncIme s))
  refine ⟨t, run, ?_⟩
  rw [step, h, fetchedInstr_syncIme, run]
  rfl

/-- Settles O6: a watchdog step answers, and every instruction completes. -/
theorem stepAlwaysAnswersNext : Obligations.StepAlwaysAnswersNext := by
  intro s
  cases h : watchdogCondition s
  · obtain ⟨t, -, answer⟩ := step_of_run h
    exact ⟨_, answer⟩
  · exact ⟨_, step_of_watchdog h⟩

/-- A step that answers `t` is a watchdog step, or a run of the instruction at `pc`. -/
theorem step_cases {s t : State} (h : step s = .next t) :
    (watchdogCondition s = true ∧ t = watchdogStep s) ∨
    (watchdogCondition s = false ∧ ∃ u, exec (fetchedInstr s) (fetched (syncIme s)) = .next u ∧
      t = finishCycle u) := by
  cases hw : watchdogCondition s
  · obtain ⟨u, run, answer⟩ := step_of_run hw
    exact .inr ⟨rfl, u, run, by rw [answer] at h; exact (Host.Outcome.next.inj h).symm⟩
  · rw [step_of_watchdog hw] at h
    exact .inl ⟨rfl, (Host.Outcome.next.inj h).symm⟩

/-- A fetch leaves everything but the trace. -/
@[simp] theorem fetched_frame (s : State) :
    (fetched s).f = s.f ∧ (fetched s).ime = s.ime ∧ (fetched s).total = s.total ∧
    (fetched s).stat = s.stat ∧ (fetched s).ly = s.ly ∧ (fetched s).mode = s.mode ∧
    (fetched s).clk = s.clk ∧ (fetched s).mem = s.mem ∧ (fetched s).cfg = s.cfg := by
  obtain ⟨events, h⟩ := fetched_appends s
  rw [h]
  exact ⟨rfl, rfl, rfl, rfl, rfl, rfl, rfl, rfl, rfl⟩

@[simp] theorem account_kept (c : Nat) (s : State) :
    (account c s).f = s.f ∧ (account c s).ime = s.ime ∧ (account c s).total = s.total + c ∧
    (account c s).mem = s.mem ∧ (account c s).cost = s.cost ∧ (account c s).cfg = s.cfg := by
  simp [account]

/-! The step as the spec writes it -/

/-- Settles O8: the watchdog's entry is the forced state, and LCDC's three fixed bits are in the mask. -/
theorem watchdogForcesRestart : Obligations.WatchdogForcesRestart := by
  intro s h
  refine ⟨(step_of_watchdog ((watchdogCondition_iff s).mpr h)).trans rfl, ?_⟩
  simp [forcedLcdc]

/-- The fetch reads as many bytes as the instruction is long (R110). -/
theorem fetchLength_eq (s : State) : fetchLength s = (fetchedInstr s).length :=
  (length_decodeBytes _ _ _).symm

/-- Settles O7: the bytes at `pc` decode to the instruction that the step runs, and its length is that of
the fetch. -/
theorem stepRunsTheDecodedInstruction : Obligations.StepRunsTheDecodedInstruction := by
  intro s i rest hpc htotal hdecode
  have fetch : fetchedInstr s = i := by
    rw [decode_three] at hdecode
    exact congrArg Prod.fst (Except.ok.inj hdecode)
  have run : watchdogCondition s = false := by
    rw [← Bool.not_eq_true, watchdogCondition_iff]
    exact not_or.mpr ⟨hpc, Nat.not_lt.mpr htotal⟩
  obtain ⟨t, ht, answer⟩ := step_of_run run
  refine ⟨fetch, t, ?_, answer.trans (by rw [finishCycle_eq])⟩
  have len : fetchLength (syncIme s) = i.length := by rw [fetchLength_eq, fetchedInstr_syncIme, fetch]
  rwa [fetch, fetched, len, syncIme_eq] at ht

/-- Settles O11: an accounted step adds its cost to `total`, and no other step writes it. -/
theorem totalCountsReturnedCosts : Obligations.TotalCountsReturnedCosts := by
  intro s t h
  obtain ⟨hw, rfl⟩ | ⟨hw, u, run, rfl⟩ := step_cases h
  · cases accounts : s.cfg.watchdogAccounts <;> simp [watchdogStep, accounts, hw]
  · simp [hw, finishCycle, (exec_form run).engine]

/-! `ime` and the trace over a step -/

theorem syncIme_withGhosts (s : State) (ime : Bool) (old : List Event) :
    syncIme (s.withGhosts ime old) =
      (syncIme s).withGhosts (ime || decide (s.ifReg &&& s.ie ≠ 0#8)) old := by
  rw [syncIme_eq, syncIme_eq]
  rfl

theorem fetched_ghostFree (s : State) : GhostFree fetched s := noteReads_ghostFree s.pc (fetchLength s) s

/-- DI alone writes `ime`, and no instruction reads it. -/
theorem exec_withGhosts (i : Instr) (s : State) : ∃ t events, exec i s = .next t ∧ ∀ ime old,
    exec i (s.withGhosts ime old) = .next (t.withGhosts (decide (i ≠ .di) && ime) (old ++ events)) := by
  by_cases h : i = .di
  · subst h
    exact ⟨_, [], rfl, fun ime old => by rw [List.append_nil]; rfl⟩
  · obtain ⟨f, run, events, free⟩ := exec_ghostFree h s
    exact ⟨f s, events, run s, fun ime old => by simp [run, free, h]⟩

theorem renderScanline_withGhosts (y : Nat) (s : State) (ime : Bool) (old : List Event) :
    renderScanline y (s.withGhosts ime old) = (renderScanline y s).withGhosts ime old := by
  unfold renderScanline
  split <;> rfl

theorem transition_withGhosts (s : State) (ime : Bool) (old : List Event) :
    transition (s.withGhosts ime old) = (transition s).withGhosts ime old := by
  have mode : (s.withGhosts ime old).mode = s.mode := rfl
  unfold transition
  rw [mode]
  cases s.mode with
  | oamScan => rfl
  | drawing => exact renderScanline_withGhosts s.ly.toNat (enterMode .hblank s) ime old
  | hblank =>
    by_cases last : s.ly + 1#8 = firstVblankLine <;>
      simp only [leaveHblank, State.withGhosts, last] <;> rfl
  | vblank =>
    by_cases past : lastLine.toNat < (s.ly + 1#8).toNat <;>
      simp only [leaveVblankLine, State.withGhosts, past] <;> rfl

theorem advanceClock_withGhosts (c : Nat) (s : State) (ime : Bool) (old : List Event) :
    advanceClock c (s.withGhosts ime old) = (advanceClock c s).withGhosts ime old := by
  obtain ⟨below, h⟩ | ⟨reached, h⟩ := advanceClock_cases c s
  · rw [h, advanceClock_of_below_threshold (s := s.withGhosts ime old) below]
    rfl
  · rw [h, advanceClock_of_threshold_reached (s := s.withGhosts ime old) reached]
    exact transition_withGhosts { s with clk := s.clk + c } ime old

theorem advanceRendering_withGhosts (c : Nat) (s : State) (ime : Bool) (old : List Event) :
    advanceRendering c (s.withGhosts ime old) = (advanceRendering c s).withGhosts ime old := by
  have complete : frameComplete c (s.withGhosts ime old) = frameComplete c s := rfl
  unfold advanceRendering
  rw [complete, advanceClock_withGhosts]
  dsimp only
  split <;> rfl

/-- The auto-enable forces `ime` whatever it was, and accounting does not look at it (R148, R149). -/
theorem finishCycle_withGhosts (s : State) (ime : Bool) (old : List Event) :
    finishCycle (s.withGhosts ime old) =
      (finishCycle s).withGhosts (ime || decide (s.cfg.autoImeThreshold < s.total)) old := by
  rw [finishCycle_eq, finishCycle_eq, ← advanceRendering_withGhosts]
  rfl

/-- A run of an instruction on two states that differ in their ghosts alone. -/
theorem step_withGhosts_of_run {s t : State} (hw : watchdogCondition s = false) (h : step s = .next t) :
    ∃ events, ∀ ime old, step (s.withGhosts ime old) =
      .next (t.withGhosts
        ((decide (fetchedInstr s ≠ .di) && (ime || decide (s.ifReg &&& s.ie ≠ 0#8))) ||
          decide (s.cfg.autoImeThreshold < s.total)) (old ++ events)) := by
  obtain ⟨events, fetch⟩ := fetched_ghostFree (syncIme s)
  obtain ⟨u, more, run, free⟩ := exec_withGhosts (fetchedInstr s) (fetched (syncIme s))
  obtain ⟨hw', -⟩ | ⟨-, u', run', rfl⟩ := step_cases h
  · simp [hw] at hw'
  obtain rfl := Host.Outcome.next.inj (run.symm.trans run')
  obtain ⟨total, -, -, -, -, cfg⟩ := (exec_form run).engine
  refine ⟨events ++ more, fun ime old => ?_⟩
  have instr : fetchedInstr (s.withGhosts ime old) = fetchedInstr s := rfl
  rw [step, show watchdogCondition (s.withGhosts ime old) = false from hw, fetchedInstr_syncIme, instr,
    syncIme_withGhosts, fetch, free]
  simp only [thenFinish, finishCycle_withGhosts, total, cfg, fetched_frame, syncIme_frame,
    List.append_assoc]
  rfl

/-- A watchdog step forces `ime` and writes no event. -/
theorem watchdogStep_withGhosts (s : State) (ime : Bool) (old : List Event) :
    watchdogStep (s.withGhosts ime old) = (watchdogStep s).withGhosts true old := by
  have cfg : (s.withGhosts ime old).cfg = s.cfg := rfl
  have entry : watchdogEntry (s.withGhosts ime old) = (watchdogEntry s).withGhosts true old := rfl
  unfold watchdogStep
  rw [cfg, entry]
  split
  · exact advanceRendering_withGhosts _ { watchdogEntry s with total := s.total + 20 } true old
  · rfl

/-- A step on two states that differ in their ghosts alone ends in two such states. -/
theorem step_withGhosts {s t : State} (h : step s = .next t) :
    ∃ (events : List Event) (next : Bool → Bool), ∀ ime old, step (s.withGhosts ime old) =
      .next (t.withGhosts (next ime) (old ++ events)) := by
  cases hw : watchdogCondition s
  · obtain ⟨events, run⟩ := step_withGhosts_of_run hw h
    exact ⟨events, _, run⟩
  · obtain rfl := Host.Outcome.next.inj ((step_of_watchdog hw).symm.trans h)
    refine ⟨[], fun _ => true, fun ime old => ?_⟩
    rw [step_of_watchdog (s := s.withGhosts ime old) hw, watchdogStep_withGhosts, List.append_nil]

/-- Settles O10: the law is the effect of a run on `ime`, with the state's own ghosts. -/
theorem imeAfterStep : Obligations.ImeAfterStep := by
  intro s t hw h
  obtain ⟨events, run⟩ := step_withGhosts_of_run hw h
  have own := run s.ime s.trace
  rw [State.withGhosts_self, h] at own
  exact congrArg State.ime (Host.Outcome.next.inj own)

/-- Settles O13: the two states have the same trace, so the steps append the same events to it. -/
theorem imeSteersNothing : Obligations.ImeSteersNothing := by
  intro s t b h
  obtain ⟨events, next, run⟩ := step_withGhosts h
  have own := run s.ime s.trace
  rw [State.withGhosts_self, h] at own
  have trace := congrArg State.trace (Host.Outcome.next.inj own)
  refine ⟨next b, (run b s.trace).trans ?_⟩
  rw [show s.trace ++ events = t.trace from trace.symm]
  rfl

/-- Settles O14: the two states have the same `ime`, so the steps leave the same. -/
theorem traceSteersNothing : Obligations.TraceSteersNothing := by
  intro s t old h
  obtain ⟨events, next, run⟩ := step_withGhosts h
  have own := run s.ime s.trace
  rw [State.withGhosts_self, h] at own
  have same := Host.Outcome.next.inj own
  refine ⟨events, congrArg State.trace same, (run s.ime old).trans ?_⟩
  rw [show next s.ime = t.ime from (congrArg State.ime same).symm]
  rfl

end Sys2Proof.Machine
end

section
/-! What every step keeps (10_state.md, 20_memory.md, 45_ppu_mode_machine.md R243), and what no step
leaves once the cycle budget is spent (40_step_cycle.md R151). -/

namespace Sys2Proof.Machine

/-! Flags -/

theorem jumpRelativeIf_f (taken : Bool) (e : Byte) (s : State) : (jumpRelativeIf taken e s).f = s.f := by
  cases taken <;> rfl

theorem runEscaped_f (op2 : Byte) (s : State) : (runEscaped op2 s).f = s.f := by
  unfold runEscaped
  split
  · simp [resetBit]
  · rfl

theorem returnFromStack_f (cost : Byte) (s : State) : (returnFromStack cost s).f = s.f := by
  simp [returnFromStack]

/-- Settles O12: the two rows that write F, and the rows whose shared operation leaves it. -/
theorem onlyCompareAndXorWriteFlags : Obligations.OnlyCompareAndXorWriteFlags := by
  intro i s t h
  cases i
  case jrZN e | jrNzN e =>
    cases h
    exact jumpRelativeIf_f _ e s
  case ret =>
    cases h
    exact returnFromStack_f 16#8 s
  case retNz =>
    rw [exec_retNz] at h
    cases h
    simp only [apply_ite State.f, returnFromStack_f, advance_frame, ite_self]
  case escapePrefix =>
    cases h
    exact (runEscaped_f _ _).trans (noteRead_frame _ s).2.1
  case ldhMemNA n | ldMemNnA nn =>
    cases h
    simp [storeA]
  case ldhAMemN n | ldAMemNn nn =>
    cases h
    simp [loadA, memRead]
  case callNn nn | rst38 =>
    cases h
    simp
  all_goals
    cases h
    rfl

/-! Stored bytes and parameters -/

/-- A write changes no cell outside plain storage (R71). -/
theorem get_memWrite_of_not_ram (addr x : Word) (v : Byte) (s : State) (h : (Region.of x).isRam = false) :
    (memWrite addr v s).mem.get x.toNat = s.mem.get x.toNat := by
  by_cases hx : x = addr
  · subst hx
    unfold memWrite
    cases hr : Region.of x <;> simp [hr, Region.isRam] at h ⊢
  · exact get_memWrite_other addr v s fun heq => hx (BitVec.eq_of_toNat_eq heq)

/-- No instruction changes a cell outside plain storage. -/
theorem ExecForm.get_of_not_ram {s t : State} (form : ExecForm s t) (x : Word)
    (h : (Region.of x).isRam = false) : t.mem.get x.toNat = s.mem.get x.toNat := by
  induction form with
  | afterRead s t addr _ ih => simpa using ih
  | store => simp [storeA, get_memWrite_of_not_ram _ x _ _ h]
  | load => simp [loadA, memRead]
  | pop => simp [returnFromStack]
  | push => simp [push16, get_memWrite_of_not_ram _ x _ _ h]
  | _ => simp

/-- A watchdog step leaves the stored bytes, the parameters and F. -/
@[simp] theorem watchdogStep_kept (s : State) :
    (watchdogStep s).mem = s.mem ∧ (watchdogStep s).cfg = s.cfg ∧ (watchdogStep s).f = s.f := by
  unfold watchdogStep
  split <;> simp

@[simp] theorem finishCycle_kept (s : State) :
    (finishCycle s).mem = s.mem ∧ (finishCycle s).cfg = s.cfg ∧ (finishCycle s).f = s.f := by
  simp [finishCycle]

/-- Settles O15: only the instruction stores bytes, and only in plain storage. -/
theorem stepChangesOnlyRamCells : Obligations.StepChangesOnlyRamCells := by
  intro s t h
  obtain ⟨-, rfl⟩ | ⟨-, u, run, rfl⟩ := step_cases h
  · simp
  · refine ⟨?_, fun addr hr => ?_⟩
    · simp [(exec_form run).engine]
    · simp [(exec_form run).get_of_not_ram addr hr]

/-- Settles O17: only the instruction writes F and the stored bytes, and it keeps their form. -/
theorem stepKeepsFlagNibbleAndMemoryForm : Obligations.StepKeepsFlagNibbleAndMemoryForm := by
  rintro s t ⟨flags, wf⟩ h
  unfold State.FlagInv at *
  obtain ⟨-, rfl⟩ | ⟨-, u, run, rfl⟩ := step_cases h
  · simpa using ⟨flags, wf⟩
  · have form := exec_form run
    have flags' : u.FlagInv := form.flagNibble (by simpa [State.FlagInv] using flags)
    have wf' : u.mem.wf := form.mem_wf (by simpa using wf)
    simpa using ⟨flags', wf'⟩

/-! The mode machine -/

/-- The invariants hold in a mode that has just begun, if the mode fits the scanline (R243). -/
theorem Entered.ppuInv {m : PpuMode} {ly : Byte} {t : State} (h : Entered m ly t)
    (stat : t.stat &&& 0x03#8 = t.mode.num) (last : ly.toNat ≤ 153) (fits : m = .vblank ↔ 144 ≤ ly.toNat) :
    t.PpuInv := by
  obtain ⟨rfl, clk, rfl⟩ := h
  refine ⟨stat, last, fits, ?_⟩
  rw [clk]
  cases t.mode <;> decide

/-- A transition keeps the invariants. -/
theorem transition_ppuInv {s : State} (last : s.ly.toNat ≤ 153)
    (fits : s.mode = .vblank ↔ 144 ≤ s.ly.toNat) : (transition s).PpuInv := by
  have stat : (transition s).stat &&& 0x03#8 = (transition s).mode.num := by
    rw [transition_stat, statMirror_low]
  cases hm : s.mode with
  | oamScan =>
    exact (transition_of_oamScan hm).ppuInv stat last (by simpa [hm] using fits)
  | drawing =>
    exact (transition_of_drawing hm).ppuInv stat last (by simpa [hm] using fits)
  | hblank =>
    have visible : s.ly.toNat < 144 := by simpa [hm] using fits
    refine (transition_of_hblank hm).ppuInv stat (by bv_omega) ?_
    split
    case isTrue h => simp [h]
    case isFalse h =>
      simp
      bv_omega
  | vblank =>
    have below : 144 ≤ s.ly.toNat := by simpa [hm] using fits
    by_cases h : s.ly = lastLine
    · exact (transition_of_lastLine hm h).ppuInv stat (by decide) (by decide)
    · have next : (s.ly + 1#8).toNat ≤ 153 := by simp only [lastLine] at h; bv_omega
      exact (transition_of_vblank hm next).ppuInv stat next (by simp; bv_omega)

theorem advanceClock_ppuInv (c : Nat) {s : State} (h : s.PpuInv) : (advanceClock c s).PpuInv := by
  obtain ⟨stat, last, fits, -⟩ := h
  obtain ⟨below, eq⟩ | ⟨-, eq⟩ := advanceClock_cases c s <;> rw [eq]
  · exact ⟨stat, last, fits, below⟩
  · exact transition_ppuInv last fits

/-- The invariants speak of four fields. -/
theorem ppuInv_congr {s t : State} (h : s.PpuInv) (stat : t.stat &&& 0x03#8 = s.stat &&& 0x03#8)
    (mode : t.mode = s.mode) (clk : t.clk = s.clk) (ly : t.ly = s.ly) : t.PpuInv := by
  unfold State.PpuInv
  rwa [stat, mode, clk, ly]

theorem account_ppuInv (c : Nat) {s : State} (h : s.PpuInv) : (account c s).PpuInv := by
  obtain ⟨mode, clk, ly, stat, -⟩ := advanceRendering_engine c { s with total := s.total + c }
  have clock : (advanceClock c { s with total := s.total + c }).PpuInv := advanceClock_ppuInv c h
  exact ppuInv_congr clock (by rw [account, stat]) mode clk ly

/-- Every step keeps the invariants of the mode machine (R243). -/
theorem step_ppuInv {s t : State} (inv : s.PpuInv) (h : step s = .next t) : t.PpuInv := by
  obtain ⟨-, rfl⟩ | ⟨-, u, run, rfl⟩ := step_cases h
  · have entry : (watchdogEntry s).PpuInv := inv
    unfold watchdogStep
    split
    · exact account_ppuInv _ entry
    · exact entry
  · have form := exec_form run
    obtain ⟨-, mode, clk, ly, -, -⟩ := form.engine
    have ran : u.PpuInv := ppuInv_congr inv (by simpa using form.stat) (by simpa using mode)
      (by simpa using clk) (by simpa using ly)
    exact account_ppuInv _ (ppuInv_congr ran (by simp) (by simp) (by simp) (by simp))

/-- Settles O16: the invariants, mode by mode; an entry of two bits is at most 3. -/
theorem stepKeepsModeMachineInvariant : Obligations.StepKeepsModeMachineInvariant := by
  intro s t inv h
  obtain ⟨stat, last, fits, clk⟩ := step_ppuInv inv h
  refine ⟨stat, last, fits.trans (and_iff_left last).symm, ?_, ?_, ?_, ?_, fun y x => ?_⟩
  · exact fun hm => by rwa [hm] at clk
  · exact fun hm => by rwa [hm] at clk
  · exact fun hm => by rwa [hm] at clk
  · exact fun hm => by rwa [hm] at clk
  · exact Nat.le_of_lt_succ (t.fb[y][x]).isLt

/-! The spent budget -/

/-- `t` is `s` restarted by the watchdog one or more times. -/
structure Restarted (s t : State) : Prop where
  pc : t.pc = 0x0100#16
  ime : t.ime = true
  ifReg : t.ifReg = 0xFF#8
  ie : t.ie = 0xFF#8
  lcdc : t.lcdc = forcedLcdc s.cfg
  bgp : t.bgp = s.cfg.watchdogBgp
  cost : t.cost = 20#8
  regs : SameRegs s t
  mem : t.mem = s.mem
  trace : t.trace = s.trace
  cfg : t.cfg = s.cfg
  total : s.total ≤ t.total

theorem watchdogStep_restarted (s : State) : Restarted s (watchdogStep s) := by
  have full : requestVblank 0xFF#8 = 0xFF#8 := by decide
  unfold watchdogStep
  split <;> constructor <;>
    simp [SameRegs, account, advanceRendering_ifReg, full, restartPc, watchdogCost]

theorem sameRegs_trans {s t u : State} (h : SameRegs s t) (h' : SameRegs t u) : SameRegs s u := by
  simp only [SameRegs] at *
  simp only [h', h, and_self]

theorem Restarted.trans {s t u : State} (h : Restarted s t) (h' : Restarted t u) : Restarted s u where
  pc := h'.pc
  ime := h'.ime
  ifReg := h'.ifReg
  ie := h'.ie
  lcdc := h.cfg ▸ h'.lcdc
  bgp := h.cfg ▸ h'.bgp
  cost := h'.cost
  regs := sameRegs_trans h.regs h'.regs
  mem := h'.mem.trans h.mem
  trace := h'.trace.trans h.trace
  cfg := h'.cfg.trans h.cfg
  total := h.total.trans h'.total

theorem run_succ {s t : State} (k : Nat) (h : step s = .next t) : core.run (k + 1) s = core.run k t := by
  have first : core.step s = .next t := h
  simp only [Host.Core.run, first]

/-- Past the budget every run restarts: each step is a watchdog step, since `total` never falls (R151). -/
theorem run_restarts (k : Nat) {s : State} (h : s.cfg.watchdogThreshold < s.total) :
    ∃ t, core.run (k + 1) s = .next t ∧ Restarted s t := by
  have answer := step_of_watchdog ((watchdogCondition_iff s).mpr (.inr h))
  have restarted := watchdogStep_restarted s
  induction k generalizing s with
  | zero => exact ⟨_, run_succ 0 answer, restarted⟩
  | succ k ih =>
    have spent : (watchdogStep s).cfg.watchdogThreshold < (watchdogStep s).total := by
      rw [restarted.cfg]
      exact h.trans_le restarted.total
    obtain ⟨t, run, more⟩ := ih spent (step_of_watchdog ((watchdogCondition_iff _).mpr (.inr spent)))
      (watchdogStep_restarted _)
    exact ⟨t, (run_succ _ answer).trans run, restarted.trans more⟩

/-- Settles O9: past the budget every run restarts. -/
theorem watchdogIsPermanentPastTheBudget : Obligations.WatchdogIsPermanentPastTheBudget := by
  intro k s h
  obtain ⟨t, run, r⟩ := run_restarts k h
  exact ⟨t, run, r.pc, r.ime, r.ifReg, r.ie, r.lcdc, r.bgp, r.cost, r.regs, r.mem, r.trace, r.cfg,
    r.total⟩

end Sys2Proof.Machine
end

section
/-! The compositor (46_ppu_compositing.md): the layers of an entry, and each layer in numbers. -/

namespace Sys2Proof.Machine

/-! The layers of an entry -/

/-- With the display on an entry is the sprites over the window over the background (R251 to R262). -/
theorem pixel_of_displayOn {s : State} (h : s.lcdc.getLsbD 7 = true) (sorted : List Nat) (x y : Nat) :
    s.pixel sorted x y =
      if s.lcdc.getLsbD 1 then s.spritesPixel x y sorted (s.windowPixel x y (s.backgroundPixel x y))
      else s.windowPixel x y (s.backgroundPixel x y) :=
  if_pos h

/-- Settles O58: an entry of the rendered row is its pixel. -/
theorem rowEntryIsSpritesOverWindowOverBackground :
    Obligations.RowEntryIsSpritesOverWindowOverBackground := by
  intro s y x on
  exact (renderScanline_entry y x s y.isLt x.isLt).trans (pixel_of_displayOn on _ x y)

/-- With the sprites off an entry is the window over the background. -/
theorem entry_of_spritesOff {s : State} (on : s.lcdc.getLsbD 7 = true) (off : s.lcdc.getLsbD 1 = false)
    {x y : Nat} (hy : y < 144) (hx : x < 160) :
    (renderScanline y s).fb[y][x] = s.windowPixel x y (s.backgroundPixel x y) := by
  rw [renderScanline_entry y x s hy hx, pixel_of_displayOn on, off]
  rfl

/-! Colours and shades in numbers -/

/-- A bit of a byte as a number. -/
theorem toNat_getLsbD (v : Byte) (pos : Nat) : (v.getLsbD pos).toNat = bitAt v pos :=
  Nat.toNat_testBit v.toNat pos

/-- A colour index is two bits, the second plane's on top (R256, D10). -/
theorem bitplaneColour_toNat (p0 p1 : Byte) (pos : Nat) :
    (bitplaneColour p0 p1 pos).toNat = bitAt p1 pos * 2 + bitAt p0 pos := by
  rw [← toNat_getLsbD, ← toNat_getLsbD, bitplaneColour]
  cases p1.getLsbD pos <;> cases p0.getLsbD pos <;> rfl

/-- A palette holds four shades of two bits (R257, D10). -/
theorem shade_toNat (palette : Byte) (ci : BitVec 2) :
    (shade palette ci).toNat = palette.toNat / 2 ^ (2 * ci.toNat) % 4 := by
  rw [shade, BitVec.toNat_setWidth, BitVec.toNat_ushiftRight, Nat.shiftRight_eq_div_pow]

/-- The two addressing modes of tile data (R255, D9). -/
theorem tileOffset_eq (low : Bool) (idx : Byte) :
    tileOffset low idx = if low then idx.toNat * 16
      else if idx.toNat < 128 then 0x1000 + idx.toNat * 16 else 0x0800 + (idx.toNat - 128) * 16 := by
  revert low idx; decide

/-- The colour index a map shows, from the bytes of VRAM (R254 to R256). -/
theorem mapColour_toNat (s : State) (second : Bool) (mx my : Nat) :
    let vram := fun off => s.mem.get (0x8000 + off)
    let idx := vram ((if second then 0x1C00 else 0x1800) + my / 8 * 32 + mx / 8)
    let tile := if s.lcdc.getLsbD 4 then idx.toNat * 16
      else if idx.toNat < 128 then 0x1000 + idx.toNat * 16 else 0x0800 + (idx.toNat - 128) * 16
    (s.mapColour second mx my).toNat = bitAt (vram (tile + 2 * (my % 8) + 1)) (7 - mx % 8) * 2 +
      bitAt (vram (tile + 2 * (my % 8))) (7 - mx % 8) := by
  rw [State.mapColour, State.tilePixel, bitplaneColour_toNat, tileOffset_eq]
  rfl

/-! Background and window -/

/-- The window leaves what is below it where it does not cover (R259). -/
theorem windowPixel_of_not_covered {s : State} {x y : Nat} (h : s.windowCovers x y = false) (below : Shade) :
    s.windowPixel x y below = below :=
  if_neg (by simp [h])

theorem windowCovers_iff (s : State) (x y : Nat) :
    s.windowCovers x y = true ↔ s.lcdc.getLsbD 5 = true ∧ s.wy.toNat ≤ y ∧ s.wx.toNat ≤ x + 7 := by
  simp only [State.windowCovers, State.windowEnable, Bool.and_eq_true, decide_eq_true_iff, and_assoc]

/-- Settles O51: the background's colour is that of its map at the scrolled coordinate. -/
theorem backgroundRow : Obligations.BackgroundRow := by
  intro s y x
  refine ⟨?_, fun on window sprites => ?_⟩
  · rw [State.backgroundPixel, apply_ite BitVec.toNat, shade_toNat, State.backgroundColour, mapColour_toNat]
    rfl
  · have uncovered : s.windowCovers x y = false := by
      simp only [State.windowCovers, State.windowEnable, window, Bool.false_and]
    exact (entry_of_spritesOff on sprites y.isLt x.isLt).trans (windowPixel_of_not_covered uncovered _)

/-- Settles O52: the window's colour is that of its map at the distance from its corner. -/
theorem windowPixelsAreTransparentAtIndexZero : Obligations.WindowPixelsAreTransparentAtIndexZero := by
  intro s x y below covered vram wx wy idx tile ci
  have colour : (s.windowColour x y).toNat = ci := mapColour_toNat s s.windowMap wx wy
  refine ⟨fun out => ?_, fun _ zero => ?_, fun inside solid => ?_, fun hy hx on sprites => ?_⟩
  · exact windowPixel_of_not_covered (by rwa [← Bool.not_eq_true, windowCovers_iff]) below
  · exact if_neg fun h => h.2 (BitVec.eq_of_toNat_eq (colour.trans zero))
  · have nonzero : s.windowColour x y ≠ 0#2 := fun h => solid (colour.symm.trans (congrArg _ h))
    rw [State.windowPixel, if_pos ⟨(windowCovers_iff s x y).mpr inside, nonzero⟩, shade_toNat, colour]
  · exact entry_of_spritesOff on sprites hy hx

/-! Sprites -/

/-- A sprite covers its rows, by its Y byte alone (R263). -/
theorem spriteCovers_iff (s : State) (y i : Nat) :
    s.spriteCovers y i = true ↔ (s.mem.get (0xFE00 + 4 * i)).toNat ≤ y + 16 ∧
      y + 16 < (s.mem.get (0xFE00 + 4 * i)).toNat + if s.lcdc.getLsbD 2 then 16 else 8 := by
  have height : s.spriteHeight = if s.lcdc.getLsbD 2 then 16 else 8 := rfl
  have top : s.spriteTop i = (s.mem.get (0xFE00 + 4 * i)).toNat - 16 := rfl
  rw [State.spriteCovers, Bool.and_eq_true, decide_eq_true_iff, decide_eq_true_iff, top, ← height]
  omega

/-- A sprite covers its eight columns (R267). -/
theorem spriteCoversColumn_iff (s : State) (x i : Nat) :
    s.spriteCoversColumn x i = true ↔ s.spriteX i ≤ x + 8 ∧ x < s.spriteX i := by
  rw [State.spriteCoversColumn, Bool.and_eq_true, decide_eq_true_iff, decide_eq_true_iff, State.spriteLeft]
  omega

theorem mem_coveringSprites (s : State) (y i : Nat) :
    i ∈ (List.range 40).filter (fun i => s.spriteCovers y i) ↔ i < 40 ∧ s.spriteCovers y i = true := by
  rw [List.mem_filter, List.mem_range]

theorem mem_selectedSprites {s : State} {y i : Nat} (h : i ∈ s.selectedSprites y) :
    i < 40 ∧ s.spriteCovers y i = true :=
  (mem_coveringSprites s y i).mp (List.mem_of_mem_take h)

/-- Settles O53: what is selected are the first ten of an ascending list; what is not comes after them. -/
theorem spriteSelection : Obligations.SpriteSelection := by
  intro s y
  refine ⟨List.length_take_le _ _, selectedSprites_ascending s y, fun i hi => ?_, fun i hi covers out => ?_⟩
  · exact (mem_selectedSprites hi).imp_right (spriteCovers_iff s y i).mp
  · have covering := (mem_coveringSprites s y i).mpr ⟨hi, (spriteCovers_iff s y i).mpr covers⟩
    have ascending : ((List.range 40).filter fun i => s.spriteCovers y i).Pairwise (· < ·) :=
      List.pairwise_lt_range.filter _
    rw [← List.take_append_drop 10 ((List.range 40).filter _)] at covering ascending
    have dropped := (List.mem_append.mp covering).resolve_left out
    refine ⟨?_, fun j hj => (List.pairwise_append.mp ascending).2.2 j hj i dropped⟩
    have := List.length_pos_of_mem dropped
    rw [List.length_drop] at this
    exact (List.length_take ..).trans (Nat.min_eq_left (by omega))

/-! One sprite at one pixel -/

theorem spritePixel_of_not_covered {s : State} {x i : Nat} (y : Nat) (h : ¬ s.spriteCoversColumn x i = true)
    (painted : Shade) : s.spritePixel x y i painted = painted :=
  if_pos h

/-- Colour index 0 is transparent (R267). -/
theorem spritePixel_of_transparent {s : State} {x y i : Nat} (h : s.spriteColour x y i = 0#2)
    (painted : Shade) : s.spritePixel x y i painted = painted := by
  simp [State.spritePixel, h]

/-- Background priority hides a sprite behind a painted shade (R268, D21). -/
theorem spritePixel_of_behind {s : State} {i : Nat} {painted : Shade} (x y : Nat)
    (priority : (s.spriteAttr i).getLsbD 7 = true) (h : painted ≠ 0#2) :
    s.spritePixel x y i painted = painted := by
  simp only [State.spritePixel, if_pos (And.intro priority h), ite_self]

/-- An opaque sprite that is not hidden gives its own shade (R267). -/
theorem spritePixel_of_opaque {s : State} {x y i : Nat} {painted : Shade}
    (covers : s.spriteCoversColumn x i = true) (colour : s.spriteColour x y i ≠ 0#2)
    (front : (s.spriteAttr i).getLsbD 7 = false ∨ painted = 0#2) :
    s.spritePixel x y i painted = shade (s.spritePalette i) (s.spriteColour x y i) := by
  rw [State.spritePixel, if_neg (not_not.mpr covers), if_neg colour, if_neg]
  rintro ⟨priority, solid⟩
  obtain notPriority | blank := front
  · exact Bool.false_ne_true (notPriority.symm.trans priority)
  · exact solid blank

/-- In 16-row mode bit 0 of the tile number is ignored (D22). -/
theorem evenTile_toNat (tile : Byte) : (tile &&& 0xFE#8).toNat = tile.toNat / 2 * 2 := by
  revert tile; decide

/-- The sprite's row in numbers (R266). -/
theorem spriteRow_eq (s : State) (y i : Nat) :
    s.spriteRow y i = if (s.spriteAttr i).getLsbD 6
      then s.spriteHeight - 1 - (y + 16 - (s.oam (4 * i)).toNat)
      else y + 16 - (s.oam (4 * i)).toNat := by
  have row : ((y : Int) - s.spriteTop i).toNat = y + 16 - (s.oam (4 * i)).toNat := by
    rw [State.spriteTop]
    omega
  simp only [State.spriteRow, row]

/-- The sprite's tile row in numbers (R266). -/
theorem spriteRowOffset_eq (s : State) (y i : Nat) :
    s.spriteRowOffset y i =
      (if s.tallSprites then (s.spriteTile i).toNat / 2 * 2 else (s.spriteTile i).toNat) * 16 +
        s.spriteRow y i * 2 := by
  simp only [State.spriteRowOffset, apply_ite BitVec.toNat, evenTile_toNat]

/-- The sprite's colour in numbers (R267). -/
theorem spriteColour_toNat (s : State) (x y i : Nat) :
    let px := x + 8 - s.spriteX i
    let pos := if (s.spriteAttr i).getLsbD 5 then px else 7 - px
    (s.spriteColour x y i).toNat = bitAt (s.vram (s.spriteRowOffset y i + 1)) pos * 2 +
      bitAt (s.vram (s.spriteRowOffset y i)) pos := by
  have column : ((x : Int) - s.spriteLeft i).toNat = x + 8 - s.spriteX i := by
    rw [State.spriteLeft]
    omega
  simp only [State.spriteColour, column]
  exact bitplaneColour_toNat _ _ _

/-- Settles O56: the sprite's colour is that of its tile row, and the four cases are those of the draw. -/
theorem spritePixelRule : Obligations.SpritePixelRule := by
  intro s x y i painted oam vram h attr row line tile px pos ci palette _ _
  have offset : s.spriteRowOffset y i = tile * 16 + line * 2 := by
    rw [spriteRowOffset_eq, spriteRow_eq]
    rfl
  have colour : (s.spriteColour x y i).toNat = ci := by
    rw [spriteColour_toNat, offset]
    rfl
  have column : s.spriteCoversColumn x i = true ↔ (oam 1).toNat ≤ x + 8 ∧ x < (oam 1).toNat :=
    spriteCoversColumn_iff s x i
  refine ⟨fun out => ?_,
    fun left right => ⟨fun zero => ?_, fun priority hidden => ?_, fun solid front => ?_⟩⟩
  · exact spritePixel_of_not_covered y (column.not.mpr out) painted
  · exact spritePixel_of_transparent (BitVec.eq_of_toNat_eq (colour.trans zero)) painted
  · exact spritePixel_of_behind x y priority hidden
  · have nonzero : s.spriteColour x y i ≠ 0#2 := fun h => solid (colour.symm.trans (congrArg _ h))
    rw [spritePixel_of_opaque (column.mpr ⟨left, right⟩) nonzero front, shade_toNat, colour]
    rfl

/-! Overlapping sprites -/

/-- Sprites that leave the pixel alone can be left out in front (R265). -/
theorem spritesPixel_of_clear {s : State} {x y : Nat} {front : List Nat}
    (clear : ∀ j ∈ front, ∀ painted, s.spritePixel x y j painted = painted) (rest : List Nat)
    (painted : Shade) : s.spritesPixel x y (front ++ rest) painted = s.spritesPixel x y rest painted := by
  induction front with
  | nil => rfl
  | cons j front ih =>
    obtain ⟨head, tail⟩ := List.forall_mem_cons.mp clear
    exact (head _).trans (ih tail)

/-- Settles O55: what is drawn after the sprite stands before it in the sorted list, so it is not opaque
at the pixel; the sprite itself is drawn over whatever is there. -/
theorem leftmostOpaqueSpriteWins : Obligations.LeftmostOpaqueSpriteWins := by
  intro s y x i on sprites selected covers colour notPriority leftmost
  rw [show (renderScanline y s).fb[y][x] = s.pixel (s.sortedSprites y) x y from
    renderScanline_entry y x s y.isLt x.isLt, pixel_of_displayOn on, if_pos sprites]
  obtain ⟨perm, ordered⟩ := spriteSortIsStable s y
  obtain ⟨front, back, sorted⟩ := List.append_of_mem (perm.mem_iff.mpr selected)
  rw [sorted] at perm ordered ⊢
  have clear : ∀ j ∈ front, ∀ painted, s.spritePixel x y j painted = painted := by
    intro j hj painted
    have before := (List.pairwise_append.mp ordered).2.2 j hj i List.mem_cons_self
    by_cases hcolumn : s.spriteCoversColumn x j = true
    · by_cases hcolour : s.spriteColour x y j = 0#2
      · exact spritePixel_of_transparent hcolour painted
      · have other : j ≠ i := by rintro rfl; omega
        have after := leftmost j (perm.mem_iff.mp (List.mem_append_left _ hj)) other hcolumn hcolour
        omega
    · exact spritePixel_of_not_covered y hcolumn painted
  rw [spritesPixel_of_clear clear]
  exact spritePixel_of_opaque covers colour (.inl notPriority)

end Sys2Proof.Machine
end

section
/-! What the compositor reads (46_ppu_compositing.md R90, R255): offsets inside VRAM and OAM, so a row
depends on no other stored byte. -/

namespace Sys2Proof.Machine

/-! Bounds -/

theorem mapEntry_lt (second : Bool) {mx my : Nat} (hx : mx < 256) (hy : my < 256) :
    mapOffset second + my / 8 * 32 + mx / 8 < 8192 := by
  have : mapOffset second ≤ 0x1C00 := by cases second <;> decide
  omega

theorem tileRow_lt (low : Bool) (idx : Byte) {line : Nat} (h : line < 8) :
    tileOffset low idx + 2 * line + 1 < 8192 := by
  have := idx.isLt
  have offset := tileOffset_eq low idx
  split_ifs at offset <;> omega

theorem spriteRowOffset_lt {s : State} {y i : Nat} (h : s.spriteCovers y i = true) :
    s.spriteRowOffset y i + 1 < 8192 := by
  have := (s.spriteTile i).isLt
  have row : s.spriteRow y i < 16 := by
    obtain ⟨top, bottom⟩ := (spriteCovers_iff s y i).mp h
    have height : s.spriteHeight = if s.lcdc.getLsbD 2 then 16 else 8 := rfl
    have oam : s.oam (4 * i) = s.mem.get (0xFE00 + 4 * i) := rfl
    rw [← height] at bottom
    rw [spriteRow_eq, oam]
    split_ifs at height ⊢ <;> omega
  rw [spriteRowOffset_eq]
  split <;> omega

/-- On the screen the coordinates of the background and the window are below 256 (D20). -/
theorem coordinates_lt (s : State) {x y : Nat} (hx : x < 160) (hy : y < 144) :
    (x + s.scx.toNat) % 256 < 256 ∧ (y + s.scy.toNat) % 256 < 256 ∧
      x + 7 - s.wx.toNat < 256 ∧ y - s.wy.toNat < 256 :=
  ⟨Nat.mod_lt _ (by decide), Nat.mod_lt _ (by decide), by omega, by omega⟩

/-! The sort, for two keys that agree on the list -/

theorem insertByKey_congr {key key' : Nat → Nat} {i : Nat} {l : List Nat} (hi : key i = key' i)
    (hl : ∀ j ∈ l, key j = key' j) : insertByKey key i l = insertByKey key' i l := by
  induction l with
  | nil => rfl
  | cons j rest ih =>
    obtain ⟨hj, hrest⟩ := List.forall_mem_cons.mp hl
    rw [insertByKey, insertByKey, hi, hj, ih hrest]

theorem sortByKey_congr {key key' : Nat → Nat} {l : List Nat} (h : ∀ i ∈ l, key i = key' i) :
    sortByKey key l = sortByKey key' l := by
  induction l with
  | nil => rfl
  | cons i rest ih =>
    obtain ⟨hi, hrest⟩ := List.forall_mem_cons.mp h
    have sorted : sortByKey key rest = sortByKey key' rest := ih hrest
    show insertByKey key i (sortByKey key rest) = insertByKey key' i (sortByKey key' rest)
    rw [sorted]
    exact insertByKey_congr hi fun j hj => hrest j ((sortByKey_perm key' rest).mem_iff.mp hj)

/-! Two memories that agree on VRAM and OAM -/

/-- `m` holds the VRAM and OAM bytes of `s`. -/
def AgreesOnVideo (s : State) (m : Memory) : Prop :=
  ∀ k, 0x8000 ≤ k ∧ k < 0xA000 ∨ 0xFE00 ≤ k ∧ k < 0xFEA0 → m.get k = s.mem.get k

/-- `s` with another memory. -/
def State.withMem (s : State) (m : Memory) : State := { s with mem := m }

namespace AgreesOnVideo

variable {s : State} {m : Memory} (agree : AgreesOnVideo s m)
include agree

theorem vram {off : Nat} (h : off < 8192) : (s.withMem m).vram off = s.vram off :=
  agree _ (.inl (by simp only [vramBase]; omega))

theorem oam {off : Nat} (h : off < 160) : (s.withMem m).oam off = s.oam off :=
  agree _ (.inr (by simp only [oamBase]; omega))

theorem mapColour (second : Bool) {mx my : Nat} (hx : mx < 256) (hy : my < 256) :
    (s.withMem m).mapColour second mx my = s.mapColour second mx my := by
  have index : (s.withMem m).tileIndex second mx my = s.tileIndex second mx my :=
    agree.vram (mapEntry_lt second hx hy)
  have row := tileRow_lt s.tileDataLow (s.tileIndex second mx my) (Nat.mod_lt my (by decide : 0 < 8))
  have low : (s.withMem m).tileDataLow = s.tileDataLow := rfl
  rw [State.mapColour, State.mapColour, index, low, State.tilePixel, State.tilePixel, agree.vram row,
    agree.vram (Nat.lt_of_succ_lt row)]

theorem backgroundPixel {x y : Nat} (hx : x < 160) (hy : y < 144) :
    (s.withMem m).backgroundPixel x y = s.backgroundPixel x y := by
  obtain ⟨bx, by', -, -⟩ := coordinates_lt s hx hy
  have colour : (s.withMem m).backgroundColour x y = s.backgroundColour x y :=
    agree.mapColour s.backgroundMap bx by'
  rw [State.backgroundPixel, colour]
  rfl

theorem windowPixel {x y : Nat} (hx : x < 160) (hy : y < 144) (below : Shade) :
    (s.withMem m).windowPixel x y below = s.windowPixel x y below := by
  obtain ⟨-, -, wx, wy⟩ := coordinates_lt s hx hy
  have colour : (s.withMem m).windowColour x y = s.windowColour x y := agree.mapColour s.windowMap wx wy
  rw [State.windowPixel, colour]
  rfl

/-- The four bytes of each sprite are in OAM. -/
theorem sprite {i : Nat} (hi : i < 40) :
    (s.withMem m).spriteTop i = s.spriteTop i ∧ (s.withMem m).spriteX i = s.spriteX i ∧
    (s.withMem m).spriteTile i = s.spriteTile i ∧ (s.withMem m).spriteAttr i = s.spriteAttr i := by
  simp only [State.spriteTop, State.spriteX, State.spriteTile, State.spriteAttr]
  rw [agree.oam (by omega), agree.oam (by omega), agree.oam (by omega), agree.oam (by omega)]
  exact ⟨rfl, rfl, rfl, rfl⟩

theorem spriteCovers (y : Nat) {i : Nat} (hi : i < 40) :
    (s.withMem m).spriteCovers y i = s.spriteCovers y i := by
  rw [State.spriteCovers, (agree.sprite hi).1]
  rfl

theorem selectedSprites (y : Nat) : (s.withMem m).selectedSprites y = s.selectedSprites y :=
  congrArg (List.take 10) (List.filter_congr fun _ hi => agree.spriteCovers y (List.mem_range.mp hi))

theorem sortedSprites (y : Nat) : (s.withMem m).sortedSprites y = s.sortedSprites y := by
  rw [State.sortedSprites, agree.selectedSprites]
  exact sortByKey_congr fun i hi => (agree.sprite (mem_selectedSprites hi).1).2.1

theorem spritePixel (x : Nat) {y i : Nat} (hi : i < 40) (covers : s.spriteCovers y i = true)
    (painted : Shade) : (s.withMem m).spritePixel x y i painted = s.spritePixel x y i painted := by
  obtain ⟨top, left, tile, attr⟩ := agree.sprite hi
  have offset : (s.withMem m).spriteRowOffset y i = s.spriteRowOffset y i := by
    simp only [State.spriteRowOffset, State.spriteRow, top, tile, attr]
    rfl
  have row := spriteRowOffset_lt covers
  have colour : (s.withMem m).spriteColour x y i = s.spriteColour x y i := by
    simp only [State.spriteColour, State.spriteLeft, offset, left, attr, agree.vram row,
      agree.vram (Nat.lt_of_succ_lt row)]
  simp only [State.spritePixel, State.spriteCoversColumn, State.spriteLeft, State.spritePalette, colour,
    left, attr]
  rfl

theorem pixel {x y : Nat} (hx : x < 160) (hy : y < 144) :
    (s.withMem m).pixel (s.sortedSprites y) x y = s.pixel (s.sortedSprites y) x y := by
  have sprites : ∀ painted, (s.withMem m).spritesPixel x y (s.sortedSprites y) painted =
      s.spritesPixel x y (s.sortedSprites y) painted := fun painted =>
    List.foldr_ext _ _ _ fun i hi under => by
      obtain ⟨number, covers⟩ := mem_selectedSprites ((sortByKey_perm _ _).mem_iff.mp hi)
      exact agree.spritePixel x number covers under
  simp only [State.pixel, agree.windowPixel hx hy, agree.backgroundPixel hx hy, sprites]
  rfl

theorem renderRow {y : Nat} (hy : y < 144) : (s.withMem m).renderRow y = s.renderRow y := by
  refine Vector.ext fun x hx => ?_
  simp only [State.renderRow, rowOf_get _ x hx, agree.sortedSprites, agree.pixel hx hy]

theorem renderScanline (y : Nat) : (renderScanline y (s.withMem m)).fb = (renderScanline y s).fb := by
  unfold Machine.renderScanline
  split
  case isTrue hy => exact congrArg (s.fb.set y · hy) (agree.renderRow hy)
  case isFalse => rfl

end AgreesOnVideo

/-- Settles O57: the offsets are bounded, and only they are read. -/
theorem compositorReadsStayInVram : Obligations.CompositorReadsStayInVram := by
  refine ⟨fun idx => ⟨rfl, ?_⟩, fun low second idx mx my line hx hy hline => ?_,
    fun s x y hx hy => coordinates_lt s hx hy, fun s y i => spriteRowOffset_lt, fun s m y agree => ?_⟩
  · revert idx; decide
  · exact ⟨mapEntry_lt second hx hy, tileRow_lt low idx hline⟩
  · exact AgreesOnVideo.renderScanline agree y

end Sys2Proof.Machine
end
